-- ==== Sys2Proof/Word.lean ====
section
/-! DEFINITION. The words of the device: bytes, 64-bit register words and the core index. -/

namespace Sys2Proof

/-- A byte of any store or record of the device. -/
abbrev Byte := BitVec 8

/-- A register word (R7: every register is 64 bits wide). -/
abbrev Word := BitVec 64

/-- A physical core index (R16: quarter × 64 + row × 8 + column, 0 to 255). -/
abbrev CoreId := BitVec 8

end Sys2Proof
end

