-- ==== Sys2Proof/Syntax.lean ====
section
/-! DEFINITION. The commands of the block: one constructor of `Instr` for each row of the table of operations and
events, with the operands that the chapters give the row. -/

namespace Sys2Proof

/-- One slot of a bundle presented for issue on a core (R121): the slot number, the low 56 bits of the slot word
(the opcode in bits [63:56] is the constructor's), and whether the slot is the last of its bundle that is not
empty. Slots of one bundle come one after another with `last = false` on all but the final one (log entry 2). -/
structure Issue where
  core : CoreId
  slot : BitVec 3
  bits : BitVec 56
  last : Bool
deriving DecidableEq, Repr

/-- The two paths of stationary loads (R61). -/
inductive LdsPath where
  | wstream
  | cm
deriving DecidableEq, Repr

/-- The two sides of a column port (R176). -/
inductive Side where
  | read
  | write
deriving DecidableEq, Repr

/-- Packet kinds of R330, and the control packets that stay on the package (R226, R227, R380). -/
inductive PktKind where
  | chRow | chOpen | cqRow | mirror | wsChunk | wsCtrl | tgArrived | heartbeat | time | resp | credit
  /-- A join request of CQ.JOIN (R243). -/
  | join
  /-- The peer-reset notice of a closed fence (R380). -/
  | peerReset
  /-- KIND 0x0 and 0xC to 0xF (R330). -/
  | reserved
deriving DecidableEq, Repr

/-- A packet: the fields of the HEAD flit (R328), the body, and for a request the operand word that it carries.
`fabric` tells a packet that crosses a fabric port from one that stays on the package. -/
structure Pkt where
  kind : PktKind
  vc : BitVec 3 := 0
  epoch : Bool := false
  dsad : Bool := false
  ssad : Bool := false
  pkey : BitVec 16 := 0
  dstSvc : BitVec 16 := 0
  dstChip : BitVec 16 := 0
  dstPinc : BitVec 16 := 0
  srcSvc : BitVec 16 := 0
  srcChip : BitVec 16 := 0
  srcPinc : BitVec 16 := 0
  dstUnit : BitVec 8 := 0
  srcUnit : BitVec 8 := 0
  dstInc : BitVec 16 := 0
  srcInc : BitVec 16 := 0
  dstEp : BitVec 8 := 0
  srcEp : BitVec 8 := 0
  arg : Word := 0
  word : Word := 0
  body : List Byte := []
  fabric : Bool := false
  /-- The fabric port that the packet crosses. -/
  port : BitVec 3 := 0
deriving DecidableEq, Repr

/-- Where a handshake waits (R226, R243): a core's receive endpoint, a queue, or a host-port saddle endpoint. -/
inductive HsTarget where
  | ep (c : CoreId) (e : BitVec 5)
  | localQueue (c : CoreId) (k : BitVec 2)
  | saddleQueue (q : BitVec 6)
  | nep (e : BitVec 8)
deriving DecidableEq, Repr

/-- A combining queue (R241): local queue k of a home core, or saddle queue q. -/
inductive QueueRef where
  | local (c : CoreId) (k : BitVec 2)
  | saddle (q : BitVec 6)
deriving DecidableEq, Repr

/-- The units that fence (R380). -/
inductive FenceUnit where
  | core (c : CoreId)
  | package
deriving DecidableEq, Repr

/-- An asynchronous access to a core's async port (R161): `data` holds the bytes of a write from `addr` on, and is
empty for a read of `len` bytes. -/
structure AsyncAccess where
  addr : BitVec 23
  len : Nat
  write : Bool
  data : List Byte
  src : BitVec 4
deriving DecidableEq, Repr

/-- An asynchronous transfer at a column port (R177, R266): the requester number 8 to 15, its first tier address,
its beats, and for a write its bytes. -/
structure PortReq where
  requester : BitVec 4
  ta : BitVec 37
  beats : Nat
  data : List Byte
deriving DecidableEq, Repr

/-- A place of the package network (PN_HOLD_FIRST.WHERE and STOP, R276). -/
structure NetPlace where
  place : BitVec 3
  stop : BitVec 8
  /-- At a ring link the output of the stop (R266), at an ejection the target: 0 core, 1 column port, 2 async port. -/
  out : BitVec 2 := 0
deriving DecidableEq, Repr

/-- The issuer of a held scheduled row (R264): a core, or a saddle combining queue. -/
structure NetOwner where
  owner : BitVec 8
  saddle : Bool
  dma : Bool
deriving DecidableEq, Repr

/-- What a received UZL block holds once its flits and its CRC are checked (R316, R318). -/
structure UzlBlock where
  bseq : BitVec 16
  ack : BitVec 16
  ackv : Bool
  nak : Bool
  idle : Bool
  xoff : BitVec 8
  /-- CRC matches and no flit is beyond correction. -/
  good : Bool
  /-- Flits corrected. -/
  corrected : Nat
  /-- Flits added to the ingress buffer of each virtual channel named. -/
  flits : List (BitVec 3 × Nat)
  /-- HEAD and BODY flits in the block. -/
  heads : Nat
  bodies : Nat
  /-- The lane that carries the block (R317). -/
  lane : BitVec 4 := 0
deriving DecidableEq, Repr

/-- The IDENT LINK flit (R320). -/
structure IdentFlit where
  plane : BitVec 8
  swport : BitVec 16
  chip : BitVec 16
  portInc : BitVec 16
  svc : BitVec 16
  role : BitVec 4
  chipV : Bool
deriving DecidableEq, Repr

/-- What triggers a fail-stop (R374): a physical condition that a unit reports, with the fields of the record. -/
structure Trigger where
  code : BitVec 16
  unit : BitVec 8
  place : BitVec 8
  saddle : Bool
  detail : Word
deriving DecidableEq, Repr

/-- An affine P-384 point, and a signature (r, s), as integers (R295). -/
structure Point where
  x : Nat
  y : Nat
deriving DecidableEq, Repr

structure Sig where
  r : Nat
  s : Nat
deriving DecidableEq, Repr

/-- The envelope of a KDMP request that needs a session (R416, R418): the datagram with its TAG zeroed, and the TAG. -/
structure Kdmp where
  auth : Bool
  session : BitVec 16
  seq : BitVec 32
  msg : List Byte
  tag : List Byte
deriving DecidableEq, Repr

/-- The header and manifest bytes that an RDMA READ brought (R301, R422). -/
structure FetchedManifest where
  header : List Byte
  manifest : List Byte
deriving DecidableEq, Repr

/-- One core image of a program bundle (R422): bundles from index 0, the register-file image by unified number
(R123), core-memory bytes, and SQ_PC. -/
structure CoreImage where
  core : CoreId
  pc : BitVec 13
  bundles : List (BitVec 13 × List Byte)
  regs : List (BitVec 7 × Word)
  cm : List (BitVec 23 × List Byte)
deriving DecidableEq, Repr

/-- The sections of a program bundle that name one service ID (R422). The manual gives each section's kind and not
its byte layout, so the command carries them parsed (log entry 9). -/
structure ProgSections where
  images : List CoreImage
  /-- set, DUAL, layout digest (R292, R296). -/
  sets : List (BitVec 4 × Bool × List Byte)
  /-- column, window number, TM_WIN word (R313). -/
  windows : List (BitVec 8 × BitVec 2 × Word)
  /-- Entries of 16 bytes (R299). -/
  placement : List (BitVec 128)
  /-- tollgate, CQ_TG_CFG word, four mask words, four peer words. -/
  tollgates : List (BitVec 8 × Word × List Word × List Word)
  latchTgs : List (BitVec 8)
  stepStartTgs : List (BitVec 8)
  recoveryEntry : BitVec 13
  /-- MAX_POS, POS_PER_BLOCK, TOTAL_BLOCKS (R371). -/
  maxPos : BitVec 20
  posPerBlock : BitVec 16
  totalBlocks : BitVec 32
  /-- Own pool window and the partner's, in flat pages (R385, R386). -/
  poolLo : BitVec 22
  poolHi : BitVec 22
  partnerLo : BitVec 22
  partnerHi : BitVec 22
  stageTa : BitVec 37
  areaTa : BitVec 37
  /-- Service IDs of the partition's members. -/
  members : List (BitVec 16)
deriving DecidableEq, Repr

/-- A program bundle as PROG_LOAD's RDMA READ brings it (R422): none when the READ fails. -/
structure ProgBundle where
  fetched : Option FetchedManifest
  fingerprint : Word
  /-- The sections of each service ID the manifest names. -/
  sections : List (BitVec 16 × ProgSections)
  /-- Digest and bytes expected of each chunk that this service ID names. -/
  digests : List (List Byte)
deriving DecidableEq, Repr

/-- A host-port frame after MAC and FCS checks (R351): kind 0 PFC, 1 UDP, 2 ARP, neighbour discovery or echo, others any other.
For a PFC frame `udpPort` is the pause time of the priority. -/
structure Frame where
  badFcs : Bool
  addrOk : Bool
  fragment : Bool
  vid : Option (BitVec 12)
  kind : Nat
  udpPort : Nat
  len : Nat
deriving DecidableEq, Repr

/-- The role of the writer of response records (R361). -/
inductive Role where
  | admitter
  | emitter
deriving DecidableEq, Repr

/-- The fields of an OPEN notice (R362), and the section that its slot's tokens answer (log entry 41). -/
structure OpenNotice where
  slot : BitVec 9
  wgen : BitVec 16
  blocks : Nat
  slotGen : BitVec 8
  sec : BitVec 4
  request : List Byte
  /-- Page-map entries that the member's firmware writes for the slot (R195): page and entry. -/
  entries : List (BitVec 12 × BitVec 32)
deriving DecidableEq, Repr

/-- The 32-byte payload of a record on the emit endpoint (R364), less its KIND, which is the row's. -/
structure EmitRec where
  core : CoreId
  reason : BitVec 8
  slot : BitVec 16
  pos : BitVec 32
  token : BitVec 32
  flags : BitVec 8
  reservedZero : Bool
deriving DecidableEq, Repr

/-- The IEEE 1588 messages that the host port stamps (R370). -/
inductive PtpKind where
  | sync
  | delayReq
deriving DecidableEq, Repr

/-- What a failed self-test names (R412). -/
structure SelfTestFail where
  place : BitVec 8
  detail : Word
deriving DecidableEq, Repr

/-- The commands, in the order of the table. Each constructor's docstring is its mnemonic and rule. -/
inductive Instr where
  /-- NOP (R122). -/
  | nop (i : Issue)
  /-- ADD (R130). -/
  | add (i : Issue)
  /-- SUB (R130). -/
  | sub (i : Issue)
  /-- MUL (R130). -/
  | mul (i : Issue)
  /-- AND (R130). -/
  | andOp (i : Issue)
  /-- OR (R130). -/
  | orOp (i : Issue)
  /-- XOR (R130). -/
  | xorOp (i : Issue)
  /-- SHL (R130). -/
  | shl (i : Issue)
  /-- SHR (R130). -/
  | shr (i : Issue)
  /-- SAR (R130). -/
  | sar (i : Issue)
  /-- SLT (R130). -/
  | slt (i : Issue)
  /-- SLTU (R130). -/
  | sltu (i : Issue)
  /-- SEQ (R130). -/
  | seq (i : Issue)
  /-- MIN (R130). -/
  | minOp (i : Issue)
  /-- MAX (R130). -/
  | maxOp (i : Issue)
  /-- ADDI (R130). -/
  | addi (i : Issue)
  /-- ANDI (R130). -/
  | andi (i : Issue)
  /-- ORI (R130). -/
  | ori (i : Issue)
  /-- XORI (R130). -/
  | xori (i : Issue)
  /-- SHLI (R130). -/
  | shli (i : Issue)
  /-- SHRI (R130). -/
  | shri (i : Issue)
  /-- SARI (R130). -/
  | sari (i : Issue)
  /-- LUI (R130). -/
  | lui (i : Issue)
  /-- MULI (R130). -/
  | muli (i : Issue)
  /-- LDN (R131). -/
  | ldn (i : Issue)
  /-- STN (R131). -/
  | stn (i : Issue)
  /-- BR (R133). -/
  | br (i : Issue)
  /-- BRC (R127). -/
  | brc (i : Issue)
  /-- BRL (R133). -/
  | brl (i : Issue)
  /-- RET (R133). -/
  | ret (i : Issue)
  /-- LP_SET (R134). -/
  | lpSet (i : Issue)
  /-- LP_SETR (R134). -/
  | lpSetr (i : Issue)
  /-- LP_BR (R134). -/
  | lpBr (i : Issue)
  /-- TG_ARRIVE (R136). -/
  | tgArrive (i : Issue)
  /-- WAIT (R127). -/
  | wait (i : Issue)
  /-- WAIT_DMA (R135). -/
  | waitDma (i : Issue)
  /-- HALT (R143). -/
  | halt (i : Issue)
  /-- LDS_WSTREAM (R57). -/
  | ldsWstream (i : Issue)
  /-- LDS_CM (R58). -/
  | ldsCm (i : Issue)
  /-- LDS_WRITE_BEAT (R60). -/
  | ldsWriteBeat (c : CoreId) (path : LdsPath)
  /-- SWAP (R62). -/
  | swap (i : Issue)
  /-- MMA_LDTD (R66). -/
  | mmaLdtd (i : Issue)
  /-- MMA_STREAM (R68). -/
  | mmaStream (i : Issue)
  /-- MMA_LIST (R71). -/
  | mmaList (i : Issue)
  /-- MMA_LIST_ENTRY (R73). -/
  | mmaListEntry (c : CoreId)
  /-- TILE_CHECK (R80). -/
  | tileCheck (c : CoreId) (tile : BitVec 3)
  /-- TILE_REPLAY (R83). -/
  | tileReplay (c : CoreId) (tile : BitVec 3)
  /-- VADD_F32 (R98). -/
  | vaddF32 (i : Issue)
  /-- VSUB_F32 (R98). -/
  | vsubF32 (i : Issue)
  /-- VMUL_F32 (R98). -/
  | vmulF32 (i : Issue)
  /-- VFMA_F32 (R98). -/
  | vfmaF32 (i : Issue)
  /-- VMAX_F32 (R98). -/
  | vmaxF32 (i : Issue)
  /-- VMIN_F32 (R98). -/
  | vminF32 (i : Issue)
  /-- VADD_BF16 (R98). -/
  | vaddBf16 (i : Issue)
  /-- VSUB_BF16 (R98). -/
  | vsubBf16 (i : Issue)
  /-- VMUL_BF16 (R98). -/
  | vmulBf16 (i : Issue)
  /-- VFMA_BF16 (R98). -/
  | vfmaBf16 (i : Issue)
  /-- VMAX_BF16 (R98). -/
  | vmaxBf16 (i : Issue)
  /-- VMIN_BF16 (R98). -/
  | vminBf16 (i : Issue)
  /-- VADD_I32 (R97). -/
  | vaddI32 (i : Issue)
  /-- VSUB_I32 (R97). -/
  | vsubI32 (i : Issue)
  /-- VMUL_I32 (R97). -/
  | vmulI32 (i : Issue)
  /-- VAND (R97). -/
  | vand (i : Issue)
  /-- VOR (R97). -/
  | vor (i : Issue)
  /-- VXOR (R97). -/
  | vxor (i : Issue)
  /-- VSHL_I32 (R97). -/
  | vshlI32 (i : Issue)
  /-- VSHR_I32 (R97). -/
  | vshrI32 (i : Issue)
  /-- VMAX_I32 (R97). -/
  | vmaxI32 (i : Issue)
  /-- VMIN_I32 (R97). -/
  | vminI32 (i : Issue)
  /-- VCMPLT_I32 (R97). -/
  | vcmpltI32 (i : Issue)
  /-- VCMPLT_F32 (R97). -/
  | vcmpltF32 (i : Issue)
  /-- VCMPLE_F32 (R97). -/
  | vcmpleF32 (i : Issue)
  /-- VCMPEQ_F32 (R97). -/
  | vcmpeqF32 (i : Issue)
  /-- VSEL (R97). -/
  | vsel (i : Issue)
  /-- VCVT (R102). -/
  | vcvt (i : Issue)
  /-- VWADD (R104). -/
  | vwadd (i : Issue)
  /-- VWADDF (R104). -/
  | vwaddf (i : Issue)
  /-- VWREBASE (R104). -/
  | vwrebase (i : Issue)
  /-- VWCVT (R104). -/
  | vwcvt (i : Issue)
  /-- VQMX (R103). -/
  | vqmx (i : Issue)
  /-- VDQMX (R103). -/
  | vdqmx (i : Issue)
  /-- VEXP2 (R99). -/
  | vexp2 (i : Issue)
  /-- VLOG2 (R99). -/
  | vlog2 (i : Issue)
  /-- VRCP (R99). -/
  | vrcp (i : Issue)
  /-- VRSQRT (R99). -/
  | vrsqrt (i : Issue)
  /-- VTANH (R99). -/
  | vtanh (i : Issue)
  /-- VSIGM (R99). -/
  | vsigm (i : Issue)
  /-- VSHUF_BFLY (R100). -/
  | vshufBfly (i : Issue)
  /-- VSHUF_ROT (R100). -/
  | vshufRot (i : Issue)
  /-- VSHUF_BCAST (R100). -/
  | vshufBcast (i : Issue)
  /-- VSHUF_SHUP (R100). -/
  | vshufShup (i : Issue)
  /-- VRAND (R112). -/
  | vrand (i : Issue)
  /-- VXS (R101). -/
  | vxs (i : Issue)
  /-- DRAIN (R106). -/
  | drain (i : Issue)
  /-- VLD (R116). -/
  | vld (i : Issue)
  /-- VST (R116). -/
  | vst (i : Issue)
  /-- DMA_COPY (R185). -/
  | dmaCopy (i : Issue)
  /-- DMA_GATHER (R188). -/
  | dmaGather (i : Issue)
  /-- DMA_PAGED (R196). -/
  | dmaPaged (i : Issue)
  /-- DMA_DESCRIPTOR_START (R182). -/
  | dmaDescriptorStart (c : CoreId) (q : BitVec 2)
  /-- DMA_DESCRIPTOR_DONE (R181). -/
  | dmaDescriptorDone (c : CoreId) (q : BitVec 2)
  /-- PAGE_MAP_LOOKUP (R194), `n` a-cycles of its core later. -/
  | pageMapLookup (c : CoreId) (q : BitVec 2) (n : Nat)
  /-- REMOTE_DMA_REQUEST (R187). -/
  | remoteDmaRequest (c : CoreId) (q : BitVec 2)
  /-- REMOTE_DMA_ACK (R259). -/
  | remoteDmaAck (c : CoreId) (q : BitVec 2)
  /-- CH_OPEN (R225). -/
  | chOpen (i : Issue)
  /-- CH_ACCEPT (R224). -/
  | chAccept (i : Issue)
  /-- CH_SEND (R233). -/
  | chSend (i : Issue)
  /-- CH_ACK (R236). -/
  | chAck (i : Issue)
  /-- CH_READ (R235). -/
  | chRead (i : Issue)
  /-- CH_CLOSE (R227). -/
  | chClose (i : Issue)
  /-- CH_STAT (R237). -/
  | chStat (i : Issue)
  /-- CQ_OPEN (R242). -/
  | cqOpen (i : Issue)
  /-- CQ_CLOSE (R247). -/
  | cqClose (i : Issue)
  /-- CQ_JOIN (R243). -/
  | cqJoin (i : Issue)
  /-- CQ_LEAVE (R247). -/
  | cqLeave (i : Issue)
  /-- CQ_CONTRIB (R244). -/
  | cqContrib (i : Issue)
  /-- CQ_MPSET (R223). -/
  | cqMpset (i : Issue)
  /-- HANDSHAKE_REQUEST (R226). -/
  | handshakeRequest (p : Pkt)
  /-- HANDSHAKE_WAIT_EXPIRY (R226). -/
  | handshakeWaitExpiry (t : HsTarget)
  /-- HANDSHAKE_REPLY (R226). -/
  | handshakeReply (p : Pkt)
  /-- MESSAGE_ROW_ARRIVAL (R230). -/
  | messageRowArrival (p : Pkt)
  /-- DELIVERY_RESPONSE (R234). -/
  | deliveryResponse (p : Pkt)
  /-- CREDIT_RETURN (R233). -/
  | creditReturn (p : Pkt)
  /-- CLOSE_NOTICE (R227). -/
  | closeNotice (p : Pkt)
  /-- PEER_RESET_NOTICE (R380). -/
  | peerResetNotice (p : Pkt)
  /-- CREDIT_HOLD_TIMEOUT (R233). -/
  | creditHoldTimeout (c : CoreId)
  /-- FLOW_HOLD_TIMEOUT (R233). -/
  | flowHoldTimeout (c : CoreId)
  /-- CONTRIBUTION_ROW_ARRIVAL (R245). -/
  | contributionRowArrival (p : Pkt)
  /-- ROUND_COMPLETE (R246). -/
  | roundComplete (q : QueueRef)
  /-- CONTRIBUTION_COMPLETE (R246). -/
  | contributionComplete (p : Pkt)
  /-- TOLLGATE_ARRIVAL (R248). -/
  | tollgateArrival (c : CoreId) (tg : BitVec 8)
  /-- TOLLGATE_RELEASE (R249). -/
  | tollgateRelease (tg : BitVec 8)
  /-- TOLLGATE_EXPIRY (R251). -/
  | tollgateExpiry (tg : BitVec 8)
  /-- CQ_TG_CTRL_RESET (R251). -/
  | cqTgCtrlReset (tg : BitVec 8)
  /-- CQ_TG_CFG_WRITE (R253). -/
  | cqTgCfgWrite (tg : BitVec 8) (v : Word)
  /-- TG_ARRIVED_FRAME (R250). -/
  | tgArrivedFrame (p : Pkt)
  /-- SQ_CTRL_START (R147). -/
  | sqCtrlStart (c : CoreId)
  /-- SQ_CTRL_STOP (R147). -/
  | sqCtrlStop (c : CoreId)
  /-- SQ_CTRL_RESUME (R147). -/
  | sqCtrlResume (c : CoreId)
  /-- SQ_CTRL_RESET (R147). -/
  | sqCtrlReset (c : CoreId)
  /-- FENCE_CLOSE (R380). -/
  | fenceClose (u : FenceUnit)
  /-- FENCE_TIMEOUT (R381). -/
  | fenceTimeout (u : FenceUnit)
  /-- FABRIC_REQUEST_TIMEOUT (R381). -/
  | fabricRequestTimeout (n : Nat)
  /-- CORE_FAULT_EVENT (R288). -/
  | coreFaultEvent (c : CoreId)
  /-- FAULT_CLASSIFY (R288). -/
  | faultClassify
  /-- PROGRAM_FAULT (R288). -/
  | programFault (svc : BitVec 16)
  /-- CM_ASYNC_MASK_WRITE (R160). -/
  | cmAsyncMaskWrite (c : CoreId) (v : Word)
  /-- CM_SCRUB_START (R170). -/
  | cmScrubStart (c : CoreId) (v : Word)
  /-- CM_SCRUB_COMPLETE (R170). -/
  | cmScrubComplete (c : CoreId)
  /-- ASYNC_ARRIVAL (R161). -/
  | asyncArrival (c : CoreId) (a : AsyncAccess)
  /-- ASYNC_ROW_LAND (R162). -/
  | asyncRowLand (c : CoreId)
  /-- ASYNC_GUARD_FIRE (R163), `n` a-cycles of the core later. -/
  | asyncGuardFire (c : CoreId) (n : Nat)
  /-- MGMT_CORE_MEMORY_ACCESS (R165). -/
  | mgmtCoreMemoryAccess (c : CoreId) (a : BitVec 23) (write : Bool) (v : Word)
  /-- TIER_SLOW_PATH_ACCESS (R174). -/
  | tierSlowPathAccess (a : BitVec 40) (write : Bool) (v : Word)
  /-- COLUMN_PORT_ASYNC_REQUEST (R179). -/
  | columnPortAsyncRequest (col : BitVec 8) (side : Side) (r : PortReq)
  /-- COLUMN_PORT_GUARD (R180), `n` a-cycles of the core above later. -/
  | columnPortGuard (col : BitVec 8) (side : Side) (n : Nat)
  /-- BURST_LIMIT_EXPIRY (R268). -/
  | burstLimitExpiry (col : BitVec 8) (side : Side)
  /-- ASYNC_TRANSFER_COMPLETE (R270). -/
  | asyncTransferComplete (col : BitVec 8) (side : Side)
  /-- PATROL_SCRUB_TICK (R200). -/
  | patrolScrubTick (col : BitVec 8)
  /-- PAGE_MAP_WRITE (R203). -/
  | pageMapWrite (w : BitVec 20) (v : Word)
  /-- ASYNC_ROW_GUARD (R265), `n` a-cycles of the place's core later. -/
  | asyncRowGuard (w : NetPlace) (n : Nat)
  /-- ROW_STALL (R274). -/
  | rowStall (w : NetPlace)
  /-- DEV_SUMMARY_REFRESH (R275). -/
  | devSummaryRefresh
  /-- UZL_BLOCK_RECEIVE (R319). -/
  | uzlBlockReceive (p : BitVec 3) (b : UzlBlock)
  /-- IDENT (R320). -/
  | ident (p : BitVec 3) (f : IdentFlit)
  /-- LANE_DROP (R323). -/
  | laneDrop (p : BitVec 3) (map : BitVec 12) (bseqAt : BitVec 16)
  /-- LANE_ACK (R323). -/
  | laneAck (p : BitVec 3) (map : BitVec 12) (bseqAt : BitVec 16)
  /-- LANE_WINDOW_END (R322). -/
  | laneWindowEnd (p : BitVec 3) (lane : BitVec 4) (corrected uncorrectable : Nat)
  /-- LANE_LOCK_LOSS (R322). -/
  | laneLockLoss (p : BitVec 3) (lane : BitVec 4)
  /-- LANE_ACK_TIMEOUT (R324). -/
  | laneAckTimeout (p : BitVec 3)
  /-- BLOCK_LOCK_LOSS (R324). -/
  | blockLockLoss (p : BitVec 3)
  /-- FI_CTRL_TRAIN (R321). -/
  | fiCtrlTrain
  /-- PORT_IDENT_TIMER (R321). -/
  | portIdentTimer (p : BitVec 3) (locked : BitVec 12)
  /-- PORT_TRAIN_TIMEOUT (R321). -/
  | portTrainTimeout (p : BitVec 3)
  /-- FI_CTRL_CHECK (R332). -/
  | fiCtrlCheck
  /-- FI_RT_COPY (R337). -/
  | fiRtCopy
  /-- RT_COPY_DONE (R337). -/
  | rtCopyDone
  /-- FI_RT_FLIP (R338). -/
  | fiRtFlip
  /-- RT_DRAIN_TIMEOUT (R338). -/
  | rtDrainTimeout
  /-- TELEMETRY_WINDOW (R345). -/
  | telemetryWindow
  /-- SYNC_PERIOD (R342). -/
  | syncPeriod
  /-- SYNC (R342). -/
  | syncMsg (p : Pkt)
  /-- DREQ (R342). -/
  | dreq (p : Pkt)
  /-- DRESP (R342). -/
  | dresp (p : Pkt)
  /-- TIME_CORRECTION (R437). -/
  | timeCorrection
  /-- HOLDOVER_TIMER (R343). -/
  | holdoverTimer
  /-- BEAT_TIMER (R383). -/
  | beatTimer
  /-- HEARTBEAT_WINDOW_END (R383). -/
  | heartbeatWindowEnd
  /-- BEAT (R384). -/
  | beat (p : Pkt)
  /-- FAIL (R383). -/
  | failMsg (p : Pkt)
  /-- HOLD (R395). -/
  | holdMsg (p : Pkt)
  /-- REPORT (R395). -/
  | reportMsg (p : Pkt)
  /-- TAKEOVER (R396). -/
  | takeover (p : Pkt)
  /-- TAKEN (R395). -/
  | taken (p : Pkt)
  /-- TAKEOVER_TIMEOUT (R395). -/
  | takeoverTimeout
  /-- REMAP (R397). -/
  | remap (p : Pkt)
  /-- SPARE_RESTORE_COMPLETE (R396). -/
  | spareRestoreComplete
  /-- RESTORED (R395). -/
  | restored (p : Pkt)
  /-- RESUME (R398). -/
  | resume (p : Pkt)
  /-- MIRROR_TAP_COPY (R386). -/
  | mirrorTapCopy
  /-- MIRROR_ROW_ARRIVAL (R387). -/
  | mirrorRowArrival (p : Pkt)
  /-- MIRROR_ACK (R387). -/
  | mirrorAck (p : Pkt)
  /-- MIRROR_RESYNC_DONE (R393). -/
  | mirrorResyncDone
  /-- FAIL_STOP (R375). -/
  | failStop (t : Trigger)
  /-- FAIL_RECORD_RELEASE (R377). -/
  | failRecordRelease
  /-- WS_LOAD (R300), with the bytes of its body. -/
  | wsLoad (k : Kdmp) (b : List Byte)
  /-- WS_ABORT (R311). -/
  | wsAbort (k : Kdmp) (wgen : BitVec 16)
  /-- WS_MANIFEST_FETCHED (R301). -/
  | wsManifestFetched (r : Option FetchedManifest)
  /-- ARM (R301). -/
  | arm (p : Pkt)
  /-- ARMED (R301). -/
  | armed (p : Pkt)
  /-- PIN_WAIT_EXPIRY (R309). -/
  | pinWaitExpiry
  /-- GO (R304). -/
  | goMsg (p : Pkt)
  /-- DRAINED (R309). -/
  | drained (p : Pkt)
  /-- WS_CHUNK_FETCHED (R301). -/
  | wsChunkFetched (chunk : BitVec 20) (r : Option (List Byte))
  /-- WS_CHUNK (R302). -/
  | wsChunk (p : Pkt)
  /-- CHUNK_NACK (R301). -/
  | chunkNack (p : Pkt)
  /-- VERIFIED (R301). -/
  | verified (p : Pkt)
  /-- ABORT (R311). -/
  | abortLoad (p : Pkt)
  /-- RETIRE (R304). -/
  | retire (p : Pkt)
  /-- ETH_FRAME_RECEIVE (R351). -/
  | ethFrameReceive (f : Frame)
  /-- HOST_LINK_UP (R351). -/
  | hostLinkUp
  /-- HOST_LINK_DOWN (R351). -/
  | hostLinkDown
  /-- REQUEST_RECORD_ARRIVAL (R353). -/
  | requestRecordArrival (sec : BitVec 4) (send : Bool) (idx : Nat) (r : List Byte)
  /-- HP_RCRED_WRITE (R361). -/
  | hpRcredWrite (sec : BitVec 4) (v : Word)
  /-- ADMISSION_CYCLE (R357). -/
  | admissionCycle
  /-- RESPONSE_RECORD_WRITE (R361). -/
  | responseRecordWrite (sec : BitVec 4) (role : Role)
  /-- QP_ACK_TIMEOUT (R352). -/
  | qpAckTimeout (qp : BitVec 10)
  /-- CONGESTION_NOTIFICATION (R352). -/
  | congestionNotification (qp : BitVec 10)
  /-- RATE_RESTORE (R352). -/
  | rateRestore (qp : BitVec 10)
  /-- PROMPT_READ_COMPLETE (R364). -/
  | promptReadComplete (slot : BitVec 9) (r : Option (List (BitVec 32)))
  /-- NOTICE_OPEN (R362). -/
  | noticeOpen (n : OpenNotice)
  /-- NOTICE_CANCEL (R362). -/
  | noticeCancel (slot : BitVec 9)
  /-- NOTICE_END (R362). -/
  | noticeEnd (slot : BitVec 9)
  /-- NOTICE_READY (R362). -/
  | noticeReady (slot : BitVec 9) (ep : BitVec 8)
  /-- NOTICE_TIMEOUT (R362). -/
  | noticeTimeout (slot : BitVec 9)
  /-- EMIT_TOKEN (R364). -/
  | emitToken (r : EmitRec)
  /-- EMIT_READY (R364). -/
  | emitReady (r : EmitRec)
  /-- EMIT_END (R366). -/
  | emitEnd (r : EmitRec)
  /-- MICRO_BATCH_START (R365). -/
  | microBatchStart
  /-- TOKEN_WINDOW_CLOSE (R366). -/
  | tokenWindowClose (slot : BitVec 9)
  /-- HOST_PTP_FRAME (R370). -/
  | hostPtpFrame (f : PtpKind)
  /-- HP_NEP_ACCEPT (R363). -/
  | hpNepAccept (ep : BitVec 8)
  /-- HP_NEP_OPEN (R363). -/
  | hpNepOpen (ep : BitVec 8)
  /-- HP_NEP_OPEN_RELAY (R363). -/
  | hpNepOpenRelay (ep : BitVec 8)
  /-- HP_NEP_CLOSE_SEND (R363). -/
  | hpNepCloseSend (ep : BitVec 8)
  /-- HP_NEP_CLOSE_RECV (R363). -/
  | hpNepCloseRecv (ep : BitVec 8)
  /-- HELLO (R404). -/
  | hello
  /-- FW_BEGIN (R414). -/
  | fwBegin (src : BitVec 128) (header : List Byte)
  /-- FW_DATA (R414). -/
  | fwData (src : BitVec 128) (off : Nat) (code : List Byte)
  /-- FW_END (R414). -/
  | fwEnd (src : BitVec 128)
  /-- FW_DOWNLOAD_TIMEOUT (R415). -/
  | fwDownloadTimeout
  /-- SESSION_OPEN (R417). -/
  | sessionOpen (keyIdx : Nat) (pub : Point)
  /-- SESSION_PROOF (R417). -/
  | sessionProof (session : BitVec 16) (pub : Point) (sig : Sig)
  /-- SESSION_TIMEOUT (R417). -/
  | sessionTimeout (session : BitVec 16)
  /-- IDENTITY (R418). -/
  | identity
  /-- ATTEST (R421). -/
  | attest (nonce : List Byte)
  /-- REG_READ (R419). -/
  | regRead (k : Kdmp) (a : BitVec 64) (count : Nat)
  /-- REG_WRITE (R419). -/
  | regWrite (k : Kdmp) (pairs : List (BitVec 64 × Word))
  /-- TELEMETRY_CFG (R418). -/
  | telemetryCfg (k : Kdmp) (periodMs : Nat) (addrs : List (BitVec 64))
  /-- TELEMETRY (R418). -/
  | telemetry
  /-- PROG_LOAD (R422). -/
  | progLoad (k : Kdmp) (b : ProgBundle)
  /-- PROG_START (R423). -/
  | progStart (k : Kdmp)
  /-- QP_RESET (R368). -/
  | qpReset (k : Kdmp) (qpn : BitVec 24)
  /-- PARTITION_RELOAD (R290). -/
  | partitionReload (k : Kdmp)
  /-- PARTITION_RELEASE (R290). -/
  | partitionRelease (k : Kdmp)
  /-- RESET_WARM (R406). -/
  | resetWarm (k : Kdmp)
  /-- RESET_COLD (R406). -/
  | resetCold (k : Kdmp)
  /-- DEBUG_UNLOCK (R424). -/
  | debugUnlock (cert : List Byte)
  /-- MS_CTRL_KICK (R427). -/
  | msCtrlKick
  /-- WATCHDOG_EXPIRY (R428). -/
  | watchdogExpiry
  /-- MS_CTRL_READY (R427). -/
  | msCtrlReady
  /-- MS_CTRL_START_ALL (R423). -/
  | msCtrlStartAll
  /-- MS_CTRL_COLD_RESET (R406). -/
  | msCtrlColdReset
  /-- MS_CTRL_WARM_RESET (R407). -/
  | msCtrlWarmReset
  /-- MS_CTRL_SEAL (R411). -/
  | msCtrlSeal
  /-- RESET_N_ASSERT (R460). -/
  | resetNAssert
  /-- RESET_N_RELEASE (R404). -/
  | resetNRelease (strap : BitVec 3)
  /-- ROOT_PLL_LOCK (R404). -/
  | rootPllLock
  /-- CONFIG_READ_COMPLETE (R410). -/
  | configReadComplete (r : List Byte)
  /-- SELF_TEST_COMPLETE (R412). -/
  | selfTestComplete (bad : Option SelfTestFail)
  /-- BOOT_PHASE_TIMEOUT (R405). -/
  | bootPhaseTimeout
  /-- MS_CLK_STEP_WRITE (R432). -/
  | msClkStepWrite (v : Word)
  /-- CLOCK_STEP_HOLD_END (R432). -/
  | clockStepHoldEnd
  /-- PLL_RELOCK_TIMEOUT (R432). -/
  | pllRelockTimeout
  /-- REFMON_WINDOW_END (R434). -/
  | refmonWindowEnd (ticks : BitVec 16)
  /-- REFCLK_STALL (R434). -/
  | refclkStall
  /-- PLL_LOCK_DROP (R434). -/
  | pllLockDrop
  /-- MS_REST_ENTER (R442). -/
  | msRestEnter
  /-- MS_REST_WAKE (R443). -/
  | msRestWake
  /-- REST_WAKE_RESTART (R443). -/
  | restWakeRestart
  /-- TEMP_SAMPLE (R444). -/
  | tempSample (q0 q1 q2 q3 sad : BitVec 12)
  /-- AVS_PERIOD (R440). -/
  | avsPeriod (q : BitVec 2) (mv : BitVec 16) (margin : BitVec 8)
  /-- MS_MSC_NS_READ (R435). -/
  | msMscNsRead
  /-- MS_MSC_HOSTOFS_WRITE (R437). -/
  | msMscHostofsWrite (v : Word)
  /-- MGMT_REGISTER_WRITE (R8). -/
  | mgmtRegisterWrite (a : BitVec 40) (v : Word)
  /-- ME_CNT_CLR_REPLAY_CYC (R88). -/
  | meCntClrReplayCyc (c : CoreId)
  /-- ME_CNT_CLR_CHK (R88). -/
  | meCntClrChk (c : CoreId)
  /-- ME_CNT_CLR_DEV (R88). -/
  | meCntClrDev (c : CoreId)
  /-- VE_CNT_CLR_DRAINS (R118). -/
  | veCntClrDrains (c : CoreId)
  /-- VE_CNT_CLR_DEV (R118). -/
  | veCntClrDev (c : CoreId)
  /-- SQ_CNT_CLR_RELEASE (R149). -/
  | sqCntClrRelease (c : CoreId)
  /-- SQ_CNT_CLR_DEV (R149). -/
  | sqCntClrDev (c : CoreId)
  /-- CM_CNT_CLR_ECC (R171). -/
  | cmCntClrEcc (c : CoreId)
  /-- CM_CNT_CLR_ASYNC (R171). -/
  | cmCntClrAsync (c : CoreId)
  /-- CM_CNT_CLR_COLLIDE (R171). -/
  | cmCntClrCollide (c : CoreId)
  /-- TM_DMA_CLR_HOLD (R201). -/
  | tmDmaClrHold (c : CoreId)
  /-- TM_CNT_CLR_ECC (R202). -/
  | tmCntClrEcc
  /-- TM_CNT_CLR_COL (R202). -/
  | tmCntClrCol
  /-- TM_CNT_CLR_PM (R202). -/
  | tmCntClrPm
  /-- CQ_CNT_CLR_RING (R252). -/
  | cqCntClrRing (c : CoreId)
  /-- CQ_CNT_CLR_REFUSED (R252). -/
  | cqCntClrRefused (c : CoreId)
  /-- CQ_CNT_CLR_DEV (R252). -/
  | cqCntClrDev (c : CoreId)
  /-- PN_CNT_CLR_ECC (R276). -/
  | pnCntClrEcc
  /-- PN_CNT_CLR_ARB (R276). -/
  | pnCntClrArb
  /-- PN_CNT_CLR_HOLD (R276). -/
  | pnCntClrHold
  /-- FI_CNT_CLR_LINK (R346). -/
  | fiCntClrLink
  /-- FI_CNT_CLR_ING (R346). -/
  | fiCntClrIng
  /-- FI_CNT_CLR_RT (R346). -/
  | fiCntClrRt
  /-- HP_CNT_CLR_LINK (R371). -/
  | hpCntClrLink
  /-- HP_CNT_CLR_EMIT (R371). -/
  | hpCntClrEmit
  /-- HP_CNT_CLR_REQ (R371). -/
  | hpCntClrReq
  /-- CU_CNT_CLR_MIRROR (R401). -/
  | cuCntClrMirror
  /-- CU_CNT_CLR_STALE (R401). -/
  | cuCntClrStale
  /-- CU_CNT_CLR_CE (R401). -/
  | cuCntClrCe
  /-- MS_WS_CNT_CLR_STAT (R312). -/
  | msWsCntClrStat
  /-- MS_CNT_CLR_KDMP (R427). -/
  | msCntClrKdmp
  /-- MS_CK_CNT_CLR_AVS (R445). -/
  | msCkCntClrAvs
  /-- MS_CK_CNT_CLR_REFMON (R445). -/
  | msCkCntClrRefmon
  /-- MS_CK_CNT_CLR_CHANGES (R445). -/
  | msCkCntClrChanges
  /-- PROG_LOAD_COMPLETE (R422). -/
  | progLoadComplete (r : Option (List (List Byte)))
  /-- POWER_DOWN (R456). -/
  | powerDown
deriving DecidableEq, Repr

end Sys2Proof
end

