-- ==== Sys2Proof/Decode.lean ====
section
/-! DEFINITION. The words of the command table. -/

namespace Sys2Proof

/-- No row of the command table has bits, so no word spells a command. -/
def decodeTableWord (_nbits _w : Nat) : Option Instr := none

end Sys2Proof
end

