-- ==== Sys2Proof/Config.lean ====
section
/-! DEFINITION. The values the manual leaves free: entropy and device secrets (no body, so nothing can be proved of one). -/

namespace Sys2Proof.Config

/-- The n-th 64-bit draw of the management controller's entropy source (R379, R417, R424: random values).
The state's counter `draws` supplies n. Log entry 4. -/
opaque entropy : Nat → BitVec 64

/-- The measurement of the boot ROM (R421, MS_MEAS_ROM), which the manual does not give. Log entry 4. -/
opaque bootRomMeasurement : List (BitVec 8)

/-- The identity certificates of the ID_CERTS fuses (R403), which the manual does not give. Log entry 4. -/
opaque idCerts : List (BitVec 8)

/-- The nonce with which the device makes its n-th ECDSA signature (R295, R417: FIPS 186-5 leaves it to the signer).
Log entry 4. -/
opaque signNonce : Nat → Nat

/-- Byte i of the part of a record's last ring row that holds no byte of the record, for the row with number n (R228 does not give it; it is
the same on every run, R278). Log entry 4. -/
opaque rowTail : Nat → Nat → BitVec 8

/-- Byte at VOB address i where both vector slots of a bundle write it in one a-cycle, from the two bytes (R94 does not say which write
stays; it is the same on every run, R278). Log entry 4. -/
opaque vobClash : Nat → BitVec 8 → BitVec 8 → BitVec 8

/-- Byte at flat tier address i that a block read brings in the a-cycle of a unit write of it, from the old and the new byte (R176 does
not say which it is; it is the same on every run, R278). Log entry 46. -/
opaque portClash : Nat → BitVec 8 → BitVec 8 → BitVec 8

/-- The highest voltage in mV that the regulator of a quarter permits (R440, MS_AVSq.MV_MAX), which the manual does not give.
Log entry 4. -/
opaque avsMax : Nat → BitVec 16

end Sys2Proof.Config
end

