-- ==== Sys2Proof/Machine/Bits.lean ====
section
/-! DEFINITION. Bit fields, saturating counter fields, sign extension and byte order (R5 to R12). -/

namespace Sys2Proof.Machine

/-- Field [hi:lo] of a word, as a number. -/
def fld {n : Nat} (w : BitVec n) (hi lo : Nat) : Nat := w.toNat / 2 ^ lo % 2 ^ (hi + 1 - lo)

/-- Bit i of a word. -/
def bit {n : Nat} (w : BitVec n) (i : Nat) : Bool := w.getLsbD i

/-- Whether field [hi:lo] is zero. -/
def zeroFld {n : Nat} (w : BitVec n) (hi lo : Nat) : Bool := fld w hi lo == 0

/-- The word with field [hi:lo] replaced by the low bits of v. -/
def setFld (w : Word) (hi lo v : Nat) : Word :=
  BitVec.ofNat 64 (w.toNat - fld w hi lo * 2 ^ lo + v % 2 ^ (hi + 1 - lo) * 2 ^ lo)

/-- A word with field [hi:lo] = v and zeros elsewhere. -/
def fw (hi lo v : Nat) : Word := setFld 0 hi lo v

/-- A counter field advanced by k, saturating at its largest value (R12). -/
def satAdd (w : Word) (hi lo k : Nat) : Word :=
  setFld w hi lo (min (fld w hi lo + k) (2 ^ (hi + 1 - lo) - 1))

/-- A counter field cleared. -/
def clrFld (w : Word) (hi lo : Nat) : Word := setFld w hi lo 0

/-- The signed value of field [hi:lo]. -/
def sfld {n : Nat} (w : BitVec n) (hi lo : Nat) : Int :=
  let v := fld w hi lo
  if v < 2 ^ (hi - lo) then (v : Int) else (v : Int) - 2 ^ (hi + 1 - lo)

/-- A number as n little-endian bytes. -/
def leBytes (n v : Nat) : List Byte := (List.range n).map fun i => BitVec.ofNat 8 (v / 256 ^ i)

/-- A number as n big-endian bytes. -/
def beBytes (n v : Nat) : List Byte := (leBytes n v).reverse

/-- The number that little-endian bytes spell. -/
def ofLe : List Byte → Nat
  | [] => 0
  | b :: bs => b.toNat + 256 * ofLe bs

/-- The number that big-endian bytes spell. -/
def ofBe (bs : List Byte) : Nat := ofLe bs.reverse

/-- The bytes of a word, lowest first. -/
def wordBytes (w : Word) : List Byte := leBytes 8 w.toNat

/-- The word that eight little-endian bytes spell. -/
def wordOf (bs : List Byte) : Word := BitVec.ofNat 64 (ofLe bs)

/-- `len` bytes of a list from index `off`; what the list does not hold reads as zero. -/
def slice (bs : List Byte) (off len : Nat) : List Byte :=
  let x := (bs.drop off).take len
  x ++ List.replicate (len - x.length) 0

/-- Little-endian field of a record: `len` bytes from `off`. -/
def recFld (bs : List Byte) (off len : Nat) : Nat := ofLe (slice bs off len)

/-- Round n up to a multiple of k. -/
def ceilTo (n k : Nat) : Nat := (n + k - 1) / k * k

end Sys2Proof.Machine
end

