-- ==== Sys2Proof/Machine/State.lean ====
section
/-! DEFINITION. The state of the device as plain data, the reasons a step can stop, and the state after reset. -/

namespace Sys2Proof.Machine

/-- Memory of one store: (address, byte) pairs with strictly rising addresses and no zero byte. A byte that is not
listed reads as zero (R412: the memory self-test leaves zeros; before it, log entry 5). -/
abbrev Mem := List Host.Cell

/-- The reasons of a REFUSED completion (R14 and the chapters). -/
inductive Reason where
  | align | asyncBank | auth | busy | disabled | ecc | failed | format | generation | index | mask | maxlen | mode
  | noListener | partitionFault | partner | placement | range | reserve | ringBank | sealed | set | state | target
  | type | unmapped
  /-- A reason that its chapter names by a code only. -/
  | code (n : Nat)
deriving DecidableEq, Repr

/-- Completion statuses (R14). -/
inductive Status where
  | ok
  | restarted (n : Nat)
  | peerReset
  | endpointGone
  | refused (r : Reason)
  | deferred (pos : Nat)
  | admitted
deriving DecidableEq, Repr

/-- A slot word of a bundle (R121): its slot number, the opcode and the bits below the opcode. The opcode is that of
the command that brought the word. -/
structure SlotWord where
  slot : BitVec 3
  opcode : BitVec 8
  bits : BitVec 56
deriving DecidableEq, Repr

/-! ### Matrix engine (chapter 3) -/

/-- The source of a stationary load (R82): path, image address, and scale address with width when SC was set. -/
structure Source where
  path : LdsPath
  addr : Nat
  scale : Option (Nat × Nat)
deriving DecidableEq, Repr

/-- One stationary register set (R55, R56): its raw image, its MX scales and the record of its source. -/
structure StatSet where
  image : List Byte := List.replicate 2048 0
  scale : List Byte := List.replicate 128 0x7F
  source : Option Source := none
deriving DecidableEq, Repr

/-- The states of a tile, with the codes of R76 in order. -/
inductive TileState where
  | free | opened | check | done | queued | draining | replay
deriving DecidableEq, Repr, Inhabited

/-- The checksum lane of one tile row and one cube column (R80): C, L and E. -/
structure Lane where
  c : BitVec 112 := 0
  l : Nat := 0
  e : Bool := false
deriving DecidableEq, Repr

/-- A replay record (R82): the source of the active set, the A-buffer line and row enables of each row group, ROW0
and the column mask. `used` holds the bytes of the set and of the lines and scale entries as the contribution used them, against
which a replay shows a changed source (R85, log entry 110). -/
structure Contribution where
  source : Option Source
  groups : List (Nat × BitVec 8)
  row0 : Nat
  colMask : Word
  used : List Byte := []
deriving DecidableEq, Repr

/-- An accumulator tile (R76 to R84): its state, the latched descriptor, the checksum lanes (64 rows × 8 groups;
an empty list is all zero), the replay log, and the a-cycle at which a DRAINING tile becomes FREE (R106). -/
structure Tile where
  st : TileState := .free
  desc : Word := 0
  lanes : List Lane := []
  log : List Contribution := []
  overflow : Bool := false
  replays : Nat := 0
  freeAt : Nat := 0
deriving DecidableEq, Repr, Inhabited

/-- An MMA.STREAM whose row groups are entering the array (R67 to R69, R78, R86): the A-buffer line and the row enables of each group
that has still to enter, the 64-row blocks before the present one, the first tile and the ring, the row group of the tile that comes
next, the descriptor, the column mask, INIT and FIN, whether the stream is longer than a tile, whether the group that comes next
begins a contribution that has not begun, and the a-cycle in which it enters. -/
structure StreamRest where
  groups : List (Nat × BitVec 8)
  block : Nat := 0
  tile : Nat
  ring : Nat
  row0 : Nat := 0
  desc : Word
  colMask : Word
  init : Bool := true
  fin : Bool := true
  long : Bool := true
  start : Bool := true
  at_ : Nat
deriving DecidableEq, Repr

/-- An MMA.LIST whose entries are entering the array (R71 to R73); `at_` is the a-cycle in which the next one enters (R86), `rows`
what the reads of the list have brought. -/
structure ListRest where
  addr : Nat
  next : Nat
  last : Nat
  td : BitVec 4
  colMask : Word
  rlo : Nat
  rlen : Nat
  bundle : BitVec 13
  at_ : Nat
  rows : List Byte := []
deriving DecidableEq, Repr

/-- A load of an LDS run that has not had its write beat (R60): its source, the issue a-cycle of its run, its number in the run, the
a-cycle of its write beat (R86), and what its reads have brought of the image and of the scale image. -/
structure PendLoad where
  src : Source
  run : Nat
  num : Nat
  at_ : Nat
  image : List Byte := []
  scale : List Byte := []
deriving DecidableEq, Repr

/-- The matrix engine of a core. `pendWs` and `pendCm` hold the loads of each path that have not written (R60), `tdAt` the
a-cycles at which pending MMA.LDTD writes land (R86), `mFree`, `wsFree` and `cmFree` the a-cycles from which the M slot and
each LDS path accept (R61, R74), `arrayFrom` and `arrayUntil`, `portFrom` and `portUntil` the first and the last a-cycle that R87 counts
for the array and the column port, `accUntil` the a-cycle after the last accumulator write (R86), `swapDue` a SWAP that takes effect
in the next a-cycle (R62). -/
structure Me where
  active : StatSet := {}
  stirrup : StatSet := {}
  fresh : Bool := false
  swapDue : Bool := false
  pendWs : List PendLoad := []
  pendCm : List PendLoad := []
  td : Vector Word 16 := Vector.replicate 16 0
  tdAt : Vector Nat 16 := Vector.replicate 16 0
  mFree : Nat := 0
  wsFree : Nat := 0
  cmFree : Nat := 0
  arrayFrom : Nat := 1
  arrayUntil : Nat := 0
  portFrom : Nat := 1
  portUntil : Nat := 0
  accUntil : Nat := 0
  tiles : Vector Tile 8 := Vector.replicate 8 {}
  acc : Mem := []
  abuf : Mem := []
  ascale : Mem := []
  ftq : List Word := []
  stream : Option StreamRest := none
  list : Option ListRest := none
  fault : Word := 0
  devCnt : Word := 0
  chkCnt : Word := 0
  replayCyc : Word := 0
deriving DecidableEq, Repr

/-! ### Vector engine (chapter 4) -/

/-- Bytes lo to hi − 1 of the VOB, read or written in an a-cycle by an instruction in flight (R94). -/
structure VobUse where
  lo : Nat
  hi : Nat
  at_ : Nat
deriving DecidableEq, Repr

/-- A result chunk that has not landed (R94): the a-cycle in which it lands (for a VST, its beat), its bytes with their addresses, and
what it sets in VE_STATUS and VE_DRAIN_STATUS. -/
structure VLate where
  at_ : Nat
  writes : List (Nat × List Byte)
  sticky : Word := 0
  drain : Word := 0
deriving DecidableEq, Repr

/-- A vector instruction in flight (R94): its slot word, the scalar and address registers at its issue, the queue entry that a DRAIN
took, its issue a-cycle, the chunk that is read next, and the results that have not landed. -/
structure VFlight where
  op : Nat
  bits : BitVec 56
  s : Vector Word 32
  a : Vector Word 16
  entry : Option Word := none
  at_ : Nat
  next : Nat := 0
  late : List VLate := []
deriving DecidableEq, Repr

/-- The vector engine of a core. `unitFree` gives for ALU, SFU, SHF, GEN, DRN, MOV the a-cycle at which the unit
accepts again (R94, R106, R117); `reads` and `writes` are the VOB accesses in flight, `flights` the instructions that read or write
chunks still, `stickyNow` and `drainNow` the W1C bits set in the present c-cycle (R10). -/
structure Ve where
  vob : Mem := []
  sticky : Word := 0
  drainStatus : Word := 0
  stickyNow : Word := 0
  drainNow : Word := 0
  fault : Word := 0
  devCnt : Word := 0
  unitFree : Vector Nat 6 := Vector.replicate 6 0
  drnStep : Nat := 1
  reads : List VobUse := []
  writes : List VobUse := []
  flights : List VFlight := []
deriving DecidableEq, Repr

/-! ### Core memory (chapter 6) -/

/-- What waits in the buffer of a core's async port (R160 to R163, R165). -/
inductive AsyncRow where
  /-- A write of whole granules, with its source. -/
  | write (addr : Nat) (data : List Byte) (src : BitVec 4)
  /-- A read for the source. -/
  | read (addr : Nat) (len : Nat) (src : BitVec 4)
  /-- A management read of one word (R165). -/
  | mgmtRead (addr : Nat)
  /-- A message row of the network for a ring byte address; its write pointer moves after it lands (R162). -/
  | message (p : Pkt) (addr : Nat)
deriving DecidableEq, Repr

/-- What an access asks for: a core-memory bank (R155), the write port of the A-buffer or of the A-scale store (R166), a side of the
core's own column port (R176). -/
inductive MemPort where
  | bank | abuf | ascale | tierRead | tierWrite
deriving DecidableEq, Repr

/-- An a-cycle `t` that moves with an access (R159): a register becomes available, a descriptor lands, a VOB write lands, the MOV
unit, an LDS path or the M slot accepts again, a load has its write beat. -/
inductive Stamp where
  | reg (n : BitVec 7) (t : Nat)
  | td (i t : Nat)
  | vob (lo t : Nat)
  | mov (t : Nat)
  | wsPath (t : Nat)
  | cmPath (t : Nat)
  | mSlot (t : Nat)
  | beat (path : LdsPath) (t : Nat)
deriving DecidableEq, Repr

/-- A memory space of a DMA side (R184). -/
inductive Space where
  | cm | tier | abuf | ascale | imem
deriving DecidableEq, Repr

/-- What an access moves in the a-cycle in which it is served (R158). -/
inductive Move where
  /-- Nothing beside the time that it takes. -/
  | idle
  /-- LDN: a register takes the word at an address (R131). -/
  | load (reg : BitVec 7) (addr : Nat)
  /-- Bytes that are known go to core memory: an STN, or a row of a network delivery. -/
  | store (addr : Nat) (data : List Byte)
  /-- A VLD beat of the move issued in a-cycle `t`: bytes of core memory for the VOB (R116). -/
  | vld (t addr len vob : Nat)
  /-- A VST beat of the move issued in a-cycle `t` (R116). -/
  | vst (t beat : Nat)
  /-- MMA.LDTD: words of a row for descriptors (R66). -/
  | descs (addr first count : Nat)
  /-- A part of the image of a load of a run, `n` bytes (R57, R58). -/
  | image (path : LdsPath) (run num addr n : Nat)
  /-- A row of scale images, for the loads of a run whose images lie in it (R56, R86). -/
  | scales (path : LdsPath) (run row : Nat)
  /-- A row of the list of an MMA.LIST (R71). -/
  | listRow (addr : Nat)
  /-- A payload row of CH.SEND or CQ.CONTRIB: the packets that leave with it; their bodies take the bytes that stand before the row,
  then its `len` bytes from `addr` on, and what is left stands before the next row (R234, R244). -/
  | sendRows (ps : List Pkt) (head : List Byte) (addr len : Nat)
  /-- A row of the result of queue k of the core, elements [lo, hi), that is sent likewise (R245, R246). -/
  | resultRow (k : Nat) (ps : List Pkt) (head : List Byte) (lo hi : Nat)
  /-- The last delivery of a round of queue k has left (R246). -/
  | roundDone (k : Nat) (inc : BitVec 16)
  /-- The read of a region row that a contribution meets, and its write: the queue and its incarnation, the region bytes, the
  contributor, and, with the row's last bytes, whether a completion is owed (R245). -/
  | regionRead (k addr len : Nat)
  | combine (k : Nat) (inc : BitVec 16) (addr : Nat) (data : List Byte) (who : Nat) (req : Option Pkt) (last : Bool)
  /-- The first ring row of CH.READ, or the row at offset 0 behind a PAD, with the instruction's fields, its destination and its
  bundle (R235). -/
  | ringHead (ep : Nat) (bits : BitVec 56) (dst : Nat) (bundle : BitVec 13) (pad : Bool)
  /-- RPTR moves past a PAD of n bytes (R235). -/
  | freePad (ep n : Nat)
  /-- A further row of the ring that CH.READ reads, and a row of the copy that it writes, with the bytes read so far (R235). -/
  | ringRead (j addr : Nat)
  | copyRow (j addr len : Nat) (data : List Byte)
  /-- CH.READ frees the record after its last ring read (R235): the endpoint, RPTR after it, the bytes credited, whether it is a CLOSE. -/
  | freeRecord (ep ptr n : Nat) (close : Bool)
  /-- A source beat of a descriptor of a DMA queue that reads nothing: its row came with its block (R186, R198). -/
  | dmaBeat (q : Nat) (num : BitVec 32)
  /-- A source beat: the rows from `row` on are read from byte `addr` of a space, `len` bytes in all (R186, R191, R198). -/
  | dmaRead (q : Nat) (num : BitVec 32) (sp : Space) (addr row len : Nat)
  /-- A source beat whose block lies in another column: its request leaves (R187). -/
  | dmaAsk (q : Nat) (num : BitVec 32) (addr row len : Nat)
  /-- The beat of a row of zeros, of an entry with V = 0 (R190). -/
  | dmaZero (q : Nat) (num : BitVec 32) (row : Nat)
  /-- The first beat of an entry or a page that faults, with its code (R190, R194). -/
  | dmaStop (q : Nat) (num : BitVec 32) (code item : Nat)
  /-- Rows row to row + n − 1 are written from byte `addr` of a space on; of an A-scale row, entry n (R186). -/
  | dmaWrite (q : Nat) (num : BitVec 32) (sp : Space) (addr row n : Nat)
  /-- A unit of rows row to row + n − 1 leaves for another column (R187). -/
  | dmaLeave (q : Nat) (num : BitVec 32) (addr row n : Nat)
  /-- Row k of the pointer list of a GATHER is read (R191). -/
  | dmaList (q : Nat) (num : BitVec 32) (k : Nat)
  /-- A ring row of the network lands for an endpoint of the core (R230, R231). -/
  | ringRow (ep : Nat) (p : Pkt) (addr : Nat)
deriving DecidableEq, Repr

/-- An access of an issued instruction that is still to be served (R156): the requester's code (0 for a load of LDS.WSTREAM), the
instruction and the access's place in its order, the read that a write follows, its rows (a VLD or VST beat has four; a beat that asks
for no bank and no port has none), the a-cycle in which it asks, what moves with it when it is held, and the data that it moves. -/
structure MemAsk where
  code : Nat
  port : MemPort := .bank
  id : Nat := 0
  seq : Nat
  src : Option Nat := none
  write : Bool := false
  narrow : Bool := false
  rows : List Nat
  at_ : Nat
  stamps : List Stamp := []
  move : Move := .idle
deriving DecidableEq, Repr

/-- A bank or port in use: its number, the row, the requester and whether it writes; or one that a held write keeps from every read in
the a-cycle (R158). -/
structure PortUse where
  port : MemPort
  unit : Nat
  row : Nat
  code : Nat
  write : Bool
  held : Bool := false
deriving DecidableEq, Repr

/-- Core memory and the async port of a core. `asks` are the accesses still to be served, `inUse` the banks and ports in use with
the last a-cycle of each use (R155), `nextAsk` the number of the next instruction that asks, `guardAt` the a-cycle in which a guard
that fired takes the head row's bank, `headServed` that it has (R163). -/
structure Cm where
  mem : Mem := []
  asks : List MemAsk := []
  inUse : List (Nat × PortUse) := []
  nextAsk : Nat := 0
  asyncBuf : List AsyncRow := []
  headWait : Nat := 0
  guardAt : Option Nat := none
  headServed : Bool := false
  asyncMask : BitVec 32 := 0xF0000000
  collide : Word := 0
  collideFirst : Word := 0
  asyncStat : Word := 0
  eccCnt : Word := 0
  eccFirst : Word := 0
  aperture : BitVec 4 := 0
  scrubBusy : Bool := false
  scrubBank : BitVec 5 := 0
deriving DecidableEq, Repr

/-! ### Sequencer (chapter 5) -/

/-- The states of a sequencer, with the codes of R143 in order. -/
inductive SqState where
  | idle | ready | run | stopped | done | fault | resetting
deriving DecidableEq, Repr

/-- The sequencer of a core. `clk` counts the a-cycles of the core since reset, in every state; SQ_CYCLE counts those
in RUN (R148). `avail` holds, for a unified register, the a-cycle at which its last write becomes available (R137).
`bundle` holds the slots of the bundle now being presented (log entry 2), `waiting` tells that it has been presented and is held
(R124), `release` the tollgate and bundle of a release wait, `tgFly` the arrivals on the tollgate line (R136), and `counted` the a-cycles from the present one on that
SQ_DEV_TOTAL has counted (R139). -/
structure Sq where
  st : SqState := .idle
  pc : BitVec 13 := 0
  startPc : BitVec 13 := 0
  fault : Word := 0
  cycle : Word := 0
  clk : Nat := 0
  devTotal : Word := 0
  counted : Nat := 0
  devCnt : Word := 0
  devFirst : Word := 0
  releaseCyc : Word := 0
  imemPend : Word := 0
  holds : BitVec 8 := 0
  s : Vector Word 32 := Vector.replicate 32 0
  a : Vector Word 16 := Vector.replicate 16 0
  rm : Vector (BitVec 8) 8 := Vector.replicate 8 0
  cm : Vector Word 8 := Vector.replicate 8 0
  lp : Vector (BitVec 32) 4 := Vector.replicate 4 0
  avail : List (BitVec 7 × Nat) := []
  release : Option (BitVec 8 × BitVec 13) := none
  tgFly : List (BitVec 8 × BitVec 13) := []
  waitDma : Option (BitVec 2 × BitVec 32) := none
  bundle : List SlotWord := []
  waiting : Bool := false
  imem : Mem := []
deriving DecidableEq, Repr

/-! ### DMA queues (chapter 7) -/

/-- What a descriptor moves, with the addresses resolved at issue. Rows are 256 bytes. -/
inductive DmaOp where
  /-- DMA.COPY (R185): source and destination space with the address of row 0, and the rows. For ASCALE the rows are
  source rows of 16 entries. -/
  | copy (ssp : Space) (src : Nat) (dsp : Space) (dst : Nat) (rows : Nat)
  /-- DMA.GATHER (R188): source space, list address, destination, declared region, entries and rows per entry. -/
  | gather (ssp : Space) (list : Nat) (dsp : Space) (dst : Nat) (region rlen entries rpe : Nat)
  /-- DMA.PAGED (R196): tier to local or local to tier, slot, logical byte, local space and byte, granules. -/
  | paged (toTier : Bool) (slot : Nat) (logical : Nat) (lsp : Space) (loc : Nat) (granules : Nat)
deriving DecidableEq, Repr

/-- A descriptor that has been issued and is not complete (R181). `num` is ISSUED before it, `started` tells that its queue has
reached it, `next` counts the rows whose source beat has been made. `rows` holds what was read and is not yet written, by row, `looked`
the page-map entries and generations that were looked up (R194). `requests` are the block requests that have left for another column
(the a-cycle in which the request lands there, byte, row, bytes), `units` the write units that have (a-cycle, byte, data), `acks` the
a-cycles in which acknowledgements land (R187, R259); `from_` is the a-cycle from which its next look-up is made, `ask` the number of its
accesses. `ended` tells that it has faulted, or followed one that did (R183). -/
structure Desc where
  op : DmaOp
  bundle : BitVec 13
  num : BitVec 32 := 0
  started : Bool := false
  next : Nat := 0
  rows : List (Nat × List Byte) := []
  looked : List (BitVec 32 × BitVec 8) := []
  requests : List (Nat × Nat × Nat × Nat) := []
  units : List (Nat × Nat × List Byte) := []
  acks : List Nat := []
  from_ : Nat := 0
  ask : Nat := 0
  ended : Bool := false
deriving DecidableEq, Repr

structure DmaQueue where
  issued : BitVec 32 := 0
  done : BitVec 32 := 0
  descs : List Desc := []
deriving DecidableEq, Repr, Inhabited

structure Dma where
  queues : Vector DmaQueue 4 := Vector.replicate 4 {}
  fault : Word := 0
  hold : Word := 0
deriving DecidableEq, Repr

/-! ### Channels and combining queues (chapter 9) -/

/-- The endpoint states of R220, with their codes in order (BROKEN for send, LISTENING for receive endpoints). -/
inductive SendState where
  | closed | opening | opened | broken
deriving DecidableEq, Repr, Inhabited

inductive RecvState where
  | closed | listening | opened
deriving DecidableEq, Repr, Inhabited

/-- The other end of a channel: package (service, chip, incarnation; ignored when local), unit, endpoint and endpoint
incarnation. -/
structure Peer where
  loc : Bool := true
  svc : BitVec 16 := 0
  chip : BitVec 16 := 0
  pinc : BitVec 16 := 0
  saddle : Bool := false
  /-- The unit's combining queue `ep`, or the host port's admission channel, and not an endpoint. -/
  queue : Bool := false
  unit : BitVec 8 := 0
  ep : BitVec 8 := 0
  inc : BitVec 16 := 0
deriving DecidableEq, Repr, Inhabited

/-- A send endpoint (R220 to R239). `last` is the code of CQ_SEP.LAST, `wcopy` the sender's copy W′ of WPTR, `seq`
the next message number, `flights` the messages whose response has not arrived, with the bundles that sent them, `bundle`
that of the CH.OPEN. -/
structure SendEp where
  st : SendState := .closed
  last : BitVec 3 := 0
  flowctl : Bool := false
  statusOnly : Bool := false
  inc : BitVec 16 := 0
  credit : Nat := 0
  maxlen : Nat := 0
  ring : Nat := 0
  wcopy : Nat := 0
  seq : Nat := 0
  sent : BitVec 32 := 0
  done : BitVec 32 := 0
  mp : BitVec 8 := 0
  peer : Peer := {}
  flights : List (Nat × BitVec 13) := []
  bundle : BitVec 13 := 0
deriving DecidableEq, Repr, Inhabited

/-- A receive endpoint (R220 to R236). `landed` lists the ring rows at or after WPTR that have landed, each with the
epoch of its packet; `waiting` is the handshake request that waits at the endpoint (R226). -/
structure RecvEp where
  st : RecvState := .closed
  inc : BitVec 16 := 0
  mp : BitVec 8 := 0
  size : BitVec 4 := 0
  base : Nat := 0
  wptr : Nat := 0
  rptr : Nat := 0
  landed : List (Nat × Bool) := []
  peer : Peer := {}
  waiting : Option Pkt := none
deriving DecidableEq, Repr, Inhabited

/-- A queue handle (R243). `joining` marks a join whose reply has not arrived, `busy` a contribution that is not
complete, `bundle` the bundle of either, `qword` the queue word, `round` the contributions completed. -/
structure QHandle where
  valid : Bool := false
  joining : Bool := false
  reader : Bool := false
  index : BitVec 6 := 0
  saddle : Bool := false
  queue : BitVec 7 := 0
  core : BitVec 8 := 0
  loc : Bool := true
  svc : BitVec 16 := 0
  qinc : BitVec 16 := 0
  cfmt : Bool := false
  statusOnly : Bool := false
  rep : BitVec 5 := 0
  busy : Bool := false
  mp : BitVec 8 := 0
  qword : Word := 0
  round : BitVec 16 := 0
  bundle : BitVec 13 := 0
deriving DecidableEq, Repr, Inhabited

/-- The states of a combining queue, with the codes of CQ_LQS in order. -/
inductive QState where
  | closed | forming | active | broken
deriving DecidableEq, Repr, Inhabited

/-- A contributor that has joined (R243, R245): its identity, the handle, FP32 conversion, and the rows of this
round's contribution that have landed. -/
structure Contributor where
  peer : Peer
  handle : BitVec 4
  cfmt : Bool
  landed : Nat := 0
  complete : Bool := false
  /-- The last row of this round's contribution, whose RESP is still owed. -/
  req : Option Pkt := none
deriving DecidableEq, Repr

/-- A reader that has joined: the channel to its receive endpoint, in which the queue takes the sender's place. -/
structure Reader where
  ep : SendEp
  handle : BitVec 4
  gone : Bool := false
  /-- The join of a reader on another package, until its endpoint has answered. -/
  join : Option Pkt := none
deriving DecidableEq, Repr

/-- A contribution row in the input buffer of a local queue (R245): its contributor, the last row's packet when it is the last, and the
region bytes that are still to be combined, with their addresses. -/
structure InRow where
  who : Nat
  req : Option Pkt
  parts : List (Nat × List Byte)
deriving DecidableEq, Repr

/-- A combining queue (R241 to R247). `rowsIn` lists the region rows written in this round, `early` the contribution
rows that wait while the queue forms, `input` those in the input buffer, `deliver` the reader index and first element of the delivery
that comes next, `sendId` the number of the accesses of the round's deliveries, `owed` the channels of a broken queue whose CLOSE record
waits for credit. -/
structure CombQueue where
  st : QState := .closed
  word : Word := 0
  owner : CoreId := 0
  round : BitVec 16 := 0
  inc : BitVec 16 := 0
  drop : BitVec 17 := 0
  contribs : List (Nat × Contributor) := []
  readers : List (Nat × Reader) := []
  rowsIn : List Nat := []
  early : List Pkt := []
  input : List InRow := []
  waiting : List Pkt := []
  deliver : Option (Nat × Nat) := none
  sendId : Nat := 0
  owed : List Reader := []
deriving DecidableEq, Repr, Inhabited

/-- The holds of R233 and R244 that a limit ends. -/
inductive CqHold where
  | credit | flow | contrib
deriving DecidableEq, Repr

/-- The CQ unit of a core. `holdStart` is the a-cycle in which a credit or contribution hold began,
`mpBundle` the bundle of the CQ.MPSET that staged the milepost. -/
structure Cq where
  send : Vector SendEp 32 := Vector.replicate 32 {}
  recv : Vector RecvEp 32 := Vector.replicate 32 {}
  handles : Vector QHandle 16 := Vector.replicate 16 {}
  queues : Vector CombQueue 4 := Vector.replicate 4 {}
  mpCurrent : BitVec 8 := 0
  mpStaged : BitVec 8 := 0
  mpPending : Bool := false
  mpBundle : BitVec 13 := 0
  limits : Word := 0x000F424000100000
  fault : Word := 0
  devCnt : Word := 0
  sendRefused : Word := 0
  ringStat : Word := 0
  flowLimit : BitVec 32 := 0
  holdStart : Option (Nat × CqHold) := none
deriving DecidableEq, Repr

/-- A core with everything in its window, and its incarnation (R379). -/
structure CoreSt where
  sq : Sq := {}
  me : Me := {}
  ve : Ve := {}
  cm : Cm := {}
  dma : Dma := {}
  cq : Cq := {}
  inc : BitVec 16 := 0
deriving DecidableEq, Repr, Inhabited

/-! ### Tollgates (chapter 9) -/

inductive TgState where
  | idle | gathering | expired
deriving DecidableEq, Repr, Inhabited

/-- A tollgate (R248 to R251): its registers, the members that have arrived, the peers in for this round and those
whose frame is kept for the next. -/
structure Tollgate where
  cfg : Word := 0
  mask : Vector Word 4 := Vector.replicate 4 0
  peer : Vector Word 4 := Vector.replicate 4 0
  st : TgState := .idle
  round : BitVec 16 := 0
  arrived : BitVec 256 := 0
  peersIn : BitVec 8 := 0
  nextIn : BitVec 8 := 0
  admOk : Bool := false
  /-- The generation that the start signal names, and that an ARRIVED frame of this or of the next round carries. -/
  admWgen : BitVec 16 := 0
  frameWgen : BitVec 16 := 0
  nextWgen : BitVec 16 := 0
  releaseNs : BitVec 32 := 0
deriving DecidableEq, Repr, Inhabited

/-! ### Tier memory, columns and code errors (chapters 6 and 7) -/

/-- The ordering codes of R19: grade and stepping. -/
inductive Part where
  | dx256a1 | dx256b0 | dx224a1 | dx224b0
deriving DecidableEq, Repr

/-- The K276-coded structures whose granules an access reads (R169, R199, R373). -/
inductive ErrStore where
  | cm | abuf | ascale | vob | acc | imem | tier | pageMap
  /-- A row of the package network, at its ejection at a stop, or at a bridge of a quarter (R274). -/
  | row | bridge
deriving DecidableEq, Repr

/-- A granule that holds a physical error (R169, R199): its structure, its core (0 for tier and page map), its byte
address, the bits in error, and whether its address-fold parity mismatches. -/
structure CodeErr where
  store : ErrStore
  core : CoreId
  addr : Nat
  nbits : Nat
  fold : Bool
deriving DecidableEq, Repr

/-- Whose an asynchronous request of a column port is: an agent's outside the model, a management access of the slow path (R174), or the
patrol scrub's read of a block and its write-back (R200). -/
inductive PortJob where
  | outside
  | slowRead (addr : Nat)
  | slowWrite (addr : Nat) (v : Word)
  | scrubRead
  | scrubBack
  /-- A row of a weight chunk (R302). -/
  | chunk
  /-- A mirror row, whose response is owed when it has landed (R387). -/
  | mirror (p : Pkt)
deriving DecidableEq, Repr, Inhabited

/-- An asynchronous request in the queue of a side (R179, R268 to R270): the a-cycle from which it asks, its preemptions so far, the
beats that earlier grants made and it keeps, and whether it owns the grant in progress. -/
structure PortEntry where
  req : PortReq
  job : PortJob := .outside
  from_ : Nat := 0
  preempted : Nat := 0
  kept : Nat := 0
  owner : Bool := false
deriving DecidableEq, Repr

/-- One side of a column port (R176 to R180): its asynchronous queue, oldest first, the a-cycle in which the grant in progress was
decided, its burst limit and whether the guard made it, and the a-cycle from which the head's count runs. A-cycles are those of the
core above. -/
structure PortSide where
  queue : List PortEntry := []
  guarded : Bool := false
  grantAt : Nat := 0
  limit : Nat := 16
  headAt : Nat := 0
deriving DecidableEq, Repr, Inhabited

structure Column where
  read : PortSide := {}
  write : PortSide := {}
  stat : Word := 0
deriving DecidableEq, Repr, Inhabited

/-- The global tier block (R202). -/
structure Tm where
  pmStat : Word := 0
  scrubCfg : Word := 0
  scrubStat : Word := 0
  eccFirst : Word := 0
  slotGen : Vector (BitVec 8) 512 := Vector.replicate 512 0
  /-- The a-cycle after the last look-up of a quarter's port (R193). -/
  lookFree : Vector Nat 4 := Vector.replicate 4 0
  /-- TM_WIN of window w of column c at index 4c + w (R313). -/
  win : Vector Word 1024 := Vector.replicate 1024 0
  cols : Vector Column 256 := Vector.replicate 256 {}
deriving DecidableEq, Repr

/-! ### Continuity (chapter 15) -/

/-- A watched peer (CU_WATCH, R383): `seen` tells that a continuity message landed in the running window, `lossAt`
is the start of the first empty window of the run. -/
structure Watch where
  valid : Bool := false
  lost : Bool := false
  missed : Nat := 0
  svc : BitVec 16 := 0
  lossNs : BitVec 32 := 0
  seen : Bool := false
  lossAt : Word := 0
deriving DecidableEq, Repr, Inhabited

/-- A row of the mirror tap (R386, R387): its number in order of taking, PART, target address on the partner, bytes
and ACKREQ. -/
structure MirrorRow where
  seq : Nat
  part : BitVec 3
  ta : Nat
  data : List Byte
  ackreq : Bool
deriving DecidableEq, Repr

/-- A slot of a REPORT or RESUME message (R384): member, slot, position and token. -/
structure SlotPos where
  svc : BitVec 16
  slot : Nat
  pos : BitVec 32
  token : BitVec 32
deriving DecidableEq, Repr

/-- The continuity unit (R373 to R402). `tap` holds mirror rows taken and not sent, `sent` those sent and not
committed, `tapped` and `committed` count rows taken and committed; `spareIdx`, `reports`, `restored` are the lead's
progress, `resume` the positions that RESUME brought, `fences` the open fences, `assume_` the
TAKEOVER whose package fence is open; `recovering` that RESUME has reset the cores, `remap` a routing entry that awaits the copy
of its bank, `restoreTa` where the first restore row landed, `acked` the mirror rows acknowledged. -/
structure Cu where
  failstop : Bool := false
  failN : Bool := false
  foPhase : BitVec 4 := 0
  lead : Bool := false
  isSpare : Bool := false
  foSvc : BitVec 16 := 0
  foChip : BitVec 16 := 0
  failRec : Vector Word 4 := Vector.replicate 4 0
  ceCnt : Word := 0
  staleReply : Word := 0
  mirrorCfg : Word := 0
  mirrorStage : BitVec 37 := 0
  mirrorArea : BitVec 37 := 0
  mirrorStat : Word := 0
  spare : Vector Word 4 := Vector.replicate 4 0
  watch : Vector Watch 32 := Vector.replicate 32 {}
  tap : List MirrorRow := []
  sent : List MirrorRow := []
  tapped : Nat := 0
  committed : Nat := 0
  beatSeq : BitVec 16 := 0
  spareIdx : Nat := 0
  reports : List SlotPos := []
  restored : Bool := false
  resume : List SlotPos := []
  fences : List FenceUnit := []
  assume_ : Option Pkt := none
  recovering : Bool := false
  remap : Option (BitVec 16 × BitVec 32) := none
  restoreTa : Option Nat := none
  acked : Nat := 0
  /-- Losses of peers: service ID and milestone time (R288, R383). -/
  losses : List (BitVec 16 × Nat) := []
  /-- Mirror rows that have arrived, in order, and whether each has been written (R387). -/
  mirrorIn : List (Pkt × Bool) := []
deriving DecidableEq, Repr

/-! ### Clocks and time (chapter 17) -/

/-- Clocks, milestone time and power (R429 to R445). The counter is `ns` and `frac`; `inc` is the increment in force, `m` the
step; `y` is the rate correction in 2^-40 and `a` the slew term in 2^-32 ns (R437); `lag` is what a backward step has still to
pass, in 2^-32 ns (R438); `hold` is the step that a hold brings, `waking` a wake from REST on its way. -/
structure Ck where
  ns : Word := 0
  frac : BitVec 32 := 0
  fracLatch : BitVec 32 := 0
  m : BitVec 5 := 16
  inc : BitVec 40 := 0x200000000
  stepM : BitVec 5 := 16
  stepInc : BitVec 40 := 0x200000000
  changes : BitVec 16 := 0
  hold : Option (BitVec 5 × BitVec 40) := none
  rest : Bool := false
  waking : Bool := false
  refmonLast : BitVec 16 := 0
  refmonMin : BitVec 16 := 0
  lock : Bool := false
  servo : BitVec 2 := 0
  steps : BitVec 14 := 0
  y : Int := 0
  a : Int := 0
  lag : Nat := 0
  avs : Vector Word 4 := Vector.replicate 4 0
  temp : Word := 0
  therm : Word := 0x488
  /-- WARN_SEEN was set in the present c-cycle (R10). -/
  thermNow : Bool := false
deriving DecidableEq, Repr

/-! ### Package network (chapter 10) -/

/-- The counters of one requester of one arbiter (R271). -/
structure ArbCount where
  kind : Nat
  index : Nat
  requester : Nat
  grants : Nat := 0
  preempted : Nat := 0
  waits : Nat := 0
  maxwait : Nat := 0
  /-- The a-cycles of the wait that has not ended. -/
  run : Nat := 0
deriving DecidableEq, Repr

/-- The requesters of one arbiter that have won, the last winner last (R267). -/
structure ArbRank where
  kind : Nat
  index : Nat
  winners : List Nat
deriving DecidableEq, Repr

/-- A slot of the network, which moves one row in an a-cycle (R260): a ring link that leaves a stop, in its direction, the spurs and bridges,
and the ejection targets of a stop (0 core, 1 column port, 2 async port). -/
inductive NetSlot where
  | rowLink (stop : Nat) (plus : Bool)
  | colLink (stop : Nat) (plus : Bool)
  | upSpur (stop : Nat)
  | upBridge (quarter : Nat)
  | downBridge (quarter : Nat)
  | downSpur (stop : Nat)
  | eject (stop target : Nat)
deriving DecidableEq, Repr

/-- What has a slot: a scheduled row, an asynchronous row, or a guard that fired (R263, R265). -/
inductive NetClass where
  | sched | async | guard
deriving DecidableEq, Repr

/-- A use of a slot in an a-cycle: its class, the issuer of a scheduled row, the arbiter with the requester that admitted it, and whence the
row came. -/
structure NetUse where
  slot : NetSlot
  at_ : Nat
  cls : NetClass
  owner : NetOwner
  arb : Option (Nat × Nat × Nat) := none
  /-- The source's stop, 256 for the saddle, and its requester number, and the a-cycle in which the row left. -/
  src : Nat := 256
  req : Nat := 0
  left : Nat := 0
  /-- Which of the rows that have left it is, its number in its asynchronous transfer, and the rows of that. -/
  id : Nat := 0
  row : Nat := 0
  rows : Nat := 1
deriving DecidableEq, Repr

/-- A row that waits in the entry buffer of a stop, a ring direction (0 row +, 1 row −, 2 column +, 3 column −) and a class, in a-cycles
[from_, to_) (R262). -/
structure NetStay where
  stop : Nat
  dir : Nat
  sched : Bool
  from_ : Nat
  to_ : Nat
deriving DecidableEq, Repr

/-- The package network (R266 to R276). `uses` are the slots taken, in a-cycles of the cores' common count, `stays` the rows in entry
buffers, `sent` the rows that have left. `acyc` is the package a-cycle count of R275. -/
structure Pn where
  arbMode : Bool := false
  arbBurst : Word := 0x0000001000100010
  prioRing : Word := 0
  prioPort : Word := 0
  prioBridge : Word := 0
  arbSel : Word := 0
  devSummary : Word := 0
  devMap : Vector Word 4 := Vector.replicate 4 0
  schedHold : Vector Word 4 := Vector.replicate 4 0
  holdFirst : Word := 0
  eccCnt : Word := 0
  counts : List ArbCount := []
  ranks : List ArbRank := []
  acyc : Nat := 0
  uses : List NetUse := []
  stays : List NetStay := []
  sent : Nat := 0
deriving DecidableEq, Repr

/-! ### Fabric interface (chapter 13) -/

/-- The port states, with the codes of R321 in order. -/
inductive PortState where
  | off | training | ident | checked | up | lost
deriving DecidableEq, Repr, Inhabited

/-- A virtual channel of a port (R326, R345): ingress occupancy, the largest one and the stall a-cycles of the running
window, and those of the last one. -/
structure Vc where
  depth : Nat := 0
  maxNow : Nat := 0
  maxLast : Nat := 0
  stallNow : Nat := 0
  stallLast : Nat := 0
deriving DecidableEq, Repr, Inhabited

/-- A fabric port (R314 to R327, R347). `egress` holds the packets that wait to leave, `rotate` the channel that is next
in rotation (R327); `rxNext` is the BSEQ that comes next in order, `nak` that a block is missing; `txNext` and `replay` are
the transmitter's next BSEQ and its blocks that no ACK covers, with their resends (R319); `dropMap` is a lane proposal
that awaits its LANE_ACK (R323). -/
structure FiPort where
  st : PortState := .off
  cable : BitVec 2 := 0
  laneMap : BitVec 12 := 0
  portInc : BitVec 16 := 0
  xoffRx : BitVec 8 := 0
  xoffTx : BitVec 8 := 0
  expect : Word := 0
  seen : Word := 0
  link : Word := 0
  txPkt : Word := 0
  txByte : Word := 0
  rxPkt : Word := 0
  rxByte : Word := 0
  txPktNow : Nat := 0
  txByteNow : Nat := 0
  rxPktNow : Nat := 0
  rxByteNow : Nat := 0
  vcs : Vector Vc 8 := Vector.replicate 8 {}
  egress : List Pkt := []
  rotate : Nat := 0
  rxNext : BitVec 16 := 0
  rxAny : Bool := false
  nak : Bool := false
  txNext : BitVec 16 := 0
  replay : List (BitVec 16 × Nat) := []
  dropMap : Option (BitVec 12) := none
  /-- Blocks that have arrived on their lanes and wait for the lanes before them, and the blocks restored to order so far (R317). -/
  deskew : List UzlBlock := []
  rxBlock : Nat := 0
  /-- Blocks sent so far, and the lane that each block of the replay buffer last left on (R317). -/
  txBlock : Nat := 0
  txLanes : List Nat := []
  trainFault : Bool := false
deriving DecidableEq, Repr, Inhabited

/-- The follower's last SYNC: T1 and T2 as milestone time in 2^-32 ns, C1 in 2^-16 ns (R342). -/
structure SyncStamp where
  t1 : Nat
  t2 : Nat
  c1 : Int
deriving DecidableEq, Repr

/-- The fabric interface (R314 to R348). `left` is the bank that the last FLIP left while it drains (R338), `awaited` the
requests whose RESP has not arrived, `dreq` the SEQ and T3 of the DREQ on its way, `sinceDreq` the SYNCs since the last
DREQ, `offset` an offset that awaits its correction interval and `delay` the last path delay, both in 2^-32 ns. -/
structure Fi where
  chipValid : Bool := false
  portMap : Word := 0
  laneCfg : Word := 0x00100000040003E8
  vcCfg : Word := 0x0000020000000100
  pkey : Vector Word 4 := Vector.replicate 4 0
  rtA : Mem := []
  rtB : Mem := []
  epoch : Bool := false
  copying : Bool := false
  left : Option Bool := none
  rtStat : Word := 0
  ingStat : Word := 0
  timeCfg : Word := 0x00000000007D0800
  timeStat : Word := 0
  teleCfg : Word := 0x3E8
  fault : Word := 0
  acceptSwap : Bool := false
  checkRun : Bool := false
  ports : Vector FiPort 8 := Vector.replicate 8 {}
  awaited : List Pkt := []
  sync : Option SyncStamp := none
  syncSeq : BitVec 16 := 0
  dreq : Option (BitVec 16 × Nat) := none
  sinceDreq : Nat := 0
  offset : Option Int := none
  delay : Option Int := none
deriving DecidableEq, Repr

/-! ### Host port and admission (chapter 14) -/

/-- A formed response record (R360, R391): its absolute number, its 64 bytes, and the mirror row of its journal entry, 0 when
it has none. -/
structure RespRec where
  vseq : Nat
  journal : Nat
  data : List Byte
deriving DecidableEq, Repr

/-- A section of the request ring (R353, R361, R371): its registers; NEXT; the section indices at which a record has
arrived and is not yet examined; the deferred record numbers; and for each role the next VSEQ, the records that the host has
acknowledged, and the formed records that wait to be written, oldest first. `known` is what a journal tells of requests: REQ_ID
and last status (R399). -/
structure Section where
  cfg : Word := 0
  raddr : Word := 0
  rkey : Word := 0
  rcred : Word := 0
  next : Nat := 0
  arrived : List Nat := []
  deferred : List Nat := []
  vseqA : Nat := 0
  vseqE : Nat := 0
  ackA : Nat := 0
  ackE : Nat := 0
  statusRecs : List RespRec := []
  tokenRecs : List RespRec := []
  known : List (Nat × Nat) := []
deriving DecidableEq, Repr, Inhabited

/-- A deferred request of a class queue (R357, R358). -/
structure Deferred where
  sec : Nat
  num : Nat
  record : List Byte
deriving DecidableEq, Repr

/-- The states of a slot, with the codes of HP_SLOTS in order. -/
inductive SlotState where
  | free | opening | opened | closing
deriving DecidableEq, Repr, Inhabited

/-- A slot (R356, R362 to R366, HP_SLOTS). `awaiting` lists the saddle send endpoints whose READY is missing, `asker` the
saddle receive endpoint that brought the OPEN of a relaying member, `readyNs` the milestone time at which its row became
ready, `stepping` that its step is in flight, `fresh` that no step has named it, `tokens` the tokens held for the next
response record, with the position and the milestone time of the first. -/
structure Slot where
  st : SlotState := .free
  cls : Nat := 0
  follow : Bool := false
  wgen : BitVec 16 := 0
  sec : Nat := 0
  lastPos : BitVec 32 := 0
  blocks : Nat := 0
  record : List Byte := []
  awaiting : List Nat := []
  asker : Option Nat := none
  prompt : Bool := false
  readyNs : Option Word := none
  readyPos : BitVec 32 := 0
  stepping : Bool := false
  fresh : Bool := false
  tokens : List (BitVec 32) := []
  tokenPos : BitVec 32 := 0
  tokenNs : Word := 0
deriving DecidableEq, Repr, Inhabited

/-- A queue pair (R352): in ERROR, the retries of its oldest request, and its rate in 2^-20 of the full rate. -/
structure Qp where
  error : Bool := false
  retries : Nat := 0
  rate : Nat := 0x100000
deriving DecidableEq, Repr, Inhabited

/-- The host port (R350 to R371). `nsend` and `nrecv` are its saddle endpoints, `relay` those opened with OPEN_RELAY,
`rotate` the section that comes next (R357), `lastGen` the generation
of the last micro-batch. `notices` are messages that wait for the credit of a saddle send endpoint, `admRecs` records (tag and
payload) that wait for that of the admission channel, `kdmp` the lengths of the datagrams in the KDMP store
(R369), `readyMark` the mirror rows that the READY record at the head of the emit ring awaits (R391). -/
structure Hp where
  portStatus : Word := 0
  mac : Word := 0
  net : Word := 0
  ip4 : Word := 0
  ip6Hi : Word := 0
  ip6Lo : Word := 0
  devKeys : Word := 0
  admCfg : Word := 0
  admCtrl : Word := 0
  totalBlocks : BitVec 32 := 0
  freeBlocks : BitVec 32 := 0
  cls : Vector Word 4 := Vector.replicate 4 0
  reqStat : Word := 0
  emitStat : Word := 0
  ringCfg : Word := 0
  ptpRx : Word := 0
  ptpTx : Word := 0
  linkStat : Word := 0
  fault : Word := 0
  nepCmd : Word := 0
  nepWord : Word := 0
  nsend : Vector SendEp 256 := Vector.replicate 256 {}
  nrecv : Vector RecvEp 256 := Vector.replicate 256 {}
  relay : BitVec 256 := 0
  notice : Mem := []
  ring : Mem := []
  sections : Vector Section 16 := Vector.replicate 16 {}
  queues : Vector (List Deferred) 4 := Vector.replicate 4 []
  slots : Vector Slot 512 := Vector.replicate 512 {}
  qps : Vector Qp 1024 := Vector.replicate 1024 {}
  rotate : Nat := 0
  lastGen : BitVec 16 := 0
  admSend : SendEp := {}
  notices : List (Nat × List Byte) := []
  admRecs : List (Nat × List Byte) := []
  kdmp : List Nat := []
  readyMark : Option Nat := none
deriving DecidableEq, Repr

/-! ### Weights (chapter 12) -/

/-- The body of WS_LOAD (R300). -/
structure WsLoadBody where
  wgen : BitVec 16
  set : BitVec 8
  source : BitVec 8
  qpn : BitVec 32
  raddr : Word
  rkey : BitVec 32
  pinWaitMs : BitVec 32
  length : Word
deriving DecidableEq, Repr

/-- Where a bundle lies in host memory (R300, R389, R422). -/
structure BundleSrc where
  rkey : BitVec 32 := 0
  raddr : Word := 0
  length : Word := 0
deriving DecidableEq, Repr, Inhabited

/-- The mode and states of a set (R292, R293), with the codes of MS_WS_SET, the layout digest that the program
declares, and for each copy BUNDLE_ID and the SHA-384 of the manifest that last loaded it (R421), its SERIAL (R297), and where the
bundle lay (R389). -/
structure WsSet where
  mode : BitVec 2 := 0
  copy0 : BitVec 2 := 0
  copy1 : BitVec 2 := 0
  last : BitVec 8 := 0
  wgen0 : BitVec 16 := 0
  wgen1 : BitVec 16 := 0
  digest : List Byte := []
  id0 : List Byte := []
  id1 : List Byte := []
  serial0 : Word := 0
  serial1 : Word := 0
  src0 : BundleSrc := {}
  src1 : BundleSrc := {}
deriving DecidableEq, Repr, Inhabited

/-- A generation entry (R304), with the code of its state; `retiring` tells that RETIRE has arrived for it. -/
structure WsGen where
  st : BitVec 2 := 0
  inplace : Bool := false
  wgen : BitVec 16 := 0
  sel : BitVec 16 := 0
  retiring : Bool := false
deriving DecidableEq, Repr, Inhabited

/-- A kept chunk of the load in progress: the rows that have arrived, its mismatches, and whether it matched. -/
structure KeptChunk where
  chunk : Nat
  rows : List (Nat × List Byte) := []
  fails : Nat := 0
  done : Bool := false
deriving DecidableEq, Repr

/-- The current or last load (R300, R301, MS_WS_LOAD). `mrows` are manifest rows that have arrived at a member, `chunks` the
member's kept chunks. `armed`, `drained`, `verified` list the members that have replied, `next` is the next chunk that the
reader fetches, `resends` the members and chunks that it sends again, `nacks` every mismatch reported, `went` that GO has been sent. -/
structure WsLoad where
  wgen : BitVec 16 := 0
  set : BitVec 4 := 0
  dual : Bool := false
  direct : Bool := false
  reader : Bool := false
  readerSvc : BitVec 16 := 0
  phase : BitVec 3 := 0
  reason : BitVec 8 := 0
  header : List Byte := []
  manifest : List Byte := []
  mrows : List (Nat × List Byte) := []
  chunks : List KeptChunk := []
  qpn : BitVec 32 := 0
  raddr : Word := 0
  rkey : BitVec 32 := 0
  length : Nat := 0
  pinWaitMs : BitVec 32 := 0
  armed : List (BitVec 16) := []
  drained : List (BitVec 16) := []
  verified : List (BitVec 16) := []
  next : Nat := 0
  resends : List (BitVec 16 × Nat) := []
  nacks : List (BitVec 16 × Nat) := []
  went : Bool := false
deriving DecidableEq, Repr

/-- The weight block (R292 to R313). `latched` tells that a latch tollgate has released since program load, `withheld`
lists the latch tollgates that are held for a generation, `stepWgen` is the generation of the step in progress, `own` the loads that a
spare has still to make (R396). -/
structure Ws where
  load : WsLoad := {}
  gens : Vector WsGen 2 := Vector.replicate 2 {}
  latchWgen : BitVec 16 := 0
  latchSel : BitVec 16 := 0
  latchTg : BitVec 8 := 0
  latches : BitVec 24 := 0
  stepWgen : BitVec 16 := 0
  stat : Word := 0
  bytes : Word := 0
  latchTgs : Vector Word 4 := Vector.replicate 4 0
  sets : Vector WsSet 16 := Vector.replicate 16 {}
  withheld : List (BitVec 8 × BitVec 16) := []
  own : List WsLoadBody := []
deriving DecidableEq, Repr

/-! ### Program and fault-handling service (chapters 11 and 16) -/

/-- The loaded program: the sections of every service ID, its fingerprint, the marks of its load record and its measurement
(R284, R422). -/
structure Program where
  sections : List (BitVec 16 × ProgSections)
  fingerprint : Word
  cross : Bool
  reinLow : Bool
  measurement : List Byte
  src : BundleSrc
deriving DecidableEq, Repr

/-- A fault record (R289). -/
structure FaultRecord where
  svc : BitVec 16
  phys : BitVec 8
  logical : BitVec 8
  sqFault : Word
  unitFault : Word
  fprint : Word
  step : BitVec 32
  timeNs : Word
  cls : BitVec 8
deriving DecidableEq, Repr

/-- The fault-handling service (R288 to R291): its records, oldest first, with CLASS 0 while a record's window runs, the
step-start tollgate that released last with its ROUND, PN_DEV_SUMMARY.TOTAL at that release, and whether a PROGRAM fault
holds the partition, and whether RELOAD awaits its program. -/
structure FaultSvc where
  records : List FaultRecord := []
  lastStep : Option (BitVec 8 × BitVec 16) := none
  lastTotal : Nat := 0
  held : Bool := false
  reload : Bool := false
deriving DecidableEq, Repr

/-! ### Management (chapter 16) -/

/-- A KDMP session (R417): `key` once it is proved, the last SEQ accepted, and the last response that was kept: type, SEQ,
status and body. -/
structure Session where
  num : BitVec 16
  keyIdx : Nat
  hostPub : Point
  devPriv : Nat
  challenge : List Byte
  key : Option (List Byte) := none
  lastSeq : Option (BitVec 32) := none
  kept : Option (Nat × BitVec 32 × Status × List Byte) := none
deriving DecidableEq, Repr

/-- The instructions of the JTAG TAP (R424, R459): BYPASS, IDCODE, and those that need JTAG unlocked, boundary scan among them. -/
inductive TapIns where
  | bypass | idcode | scan
deriving DecidableEq, Repr

/-- The management controller (R403 to R428), its fuses among it: OWNER_HASH is empty while unclaimed, MIN_SVN a thermometer.
`record` is the configuration record, `firmware` the header and code of the verified image, `download` the source, header
and pieces of the download in progress, `loading` a program whose chunks are being read, from `loadSrc`, `warm` a warm reset whose fence is
open, with its cause; `kicked` tells that KICK was written in the running window; `reports` counts the reports sent; `akSig` is the identity
key's signature of the attestation key (R420). -/
structure Ms where
  powered : Bool := true
  resetN : Bool := false
  serial : BitVec 48 := 1
  fwHash : List Byte := List.replicate 48 0
  dbgHash : List Byte := List.replicate 48 0
  owner : List Byte := []
  idSecret : Nat := 1
  minSvn : Word := 0
  phase : BitVec 8 := 0
  lastFault : BitVec 16 := 0
  cause : BitVec 3 := 0
  debug : Bool := false
  fault : Word := 0
  nonce : List Word := []
  record : List Byte := []
  firmware : List Byte × List Byte := ([], [])
  svn : Nat := 0
  download : Option (BitVec 128 × List Byte × List (Nat × List Byte)) := none
  sessions : List Session := []
  nextSession : BitVec 16 := 1
  authFail : Nat := 0
  replay : Nat := 0
  periodMs : Nat := 0
  addrs : List (BitVec 64) := []
  load : Word := 0
  loading : Option ProgBundle := none
  loadSrc : BundleSrc := {}
  warm : Option (BitVec 3) := none
  /-- A program whose chunks match, while the cores' fences close (R422, R470). -/
  writing : Bool := false
  /-- The spare reads its program bundle (R396). -/
  ownLoad : Bool := false
  /-- The instruction register of the JTAG TAP (R424, R459). -/
  tap : TapIns := .idcode
  kicked : Bool := false
  reports : Nat := 0
  akSig : Option Sig := none
deriving DecidableEq, Repr

/-! ### The device -/

/-- What has left the package or a unit for an observer outside, in order (log entry 8). -/
inductive Out where
  /-- A packet to another package, on its fabric port. -/
  | packet (p : Pkt)
  /-- The completion of a management access: address, and status with the word read (R14). -/
  | mgmt (addr : Nat) (write : Bool) (status : Status) (v : Word)
  /-- The completion of an asynchronous access or transfer to its source. -/
  | async (src : Nat) (status : Status) (data : List Byte)
  /-- A KDMP report: message type, SEQ and body (R416, R418). -/
  | kdmp (kind : Nat) (seq : Nat) (body : List Byte)
  /-- A KDMP response: message type, session, SEQ, status and body (R416). -/
  | response (kind : Nat) (session : BitVec 16) (seq : BitVec 32) (status : Status) (body : List Byte)
  /-- An RDMA operation of the host port: section, address and bytes. -/
  | rdma (sec : Nat) (addr : Word) (data : List Byte)
  /-- PROGRAM_FAULT to a member (R288); the manual gives it no packet. -/
  | programFault (svc : BitVec 16)
  /-- A LINK flit on a fabric port: port, LTYPE and the flit. -/
  | link (port : Nat) (ltype : Nat) (flit : Nat)
deriving DecidableEq, Repr

/-- The whole state of a DX256. -/
structure State where
  part : Part := .dx256a1
  cores : Vector CoreSt 256 := Vector.replicate 256 {}
  tier : Mem := []
  pageMap : Mem := []
  sqStore : Mem := []
  tm : Tm := {}
  tgs : Vector Tollgate 256 := Vector.replicate 256 {}
  saddleQ : Vector CombQueue 64 := Vector.replicate 64 {}
  pn : Pn := {}
  fi : Fi := {}
  hp : Hp := {}
  ws : Ws := {}
  prog : Option Program := none
  fsvc : FaultSvc := {}
  cu : Cu := {}
  ck : Ck := {}
  ms : Ms := {}
  fprint : Word := 0
  reinLimit : BitVec 8 := 0x80
  sealed : Bool := false
  svc : BitVec 16 := 0
  slot : BitVec 3 := 0
  pinc : BitVec 16 := 0
  errs : List CodeErr := []
  coreFaults : List CoreId := []
  net : List Pkt := []
  out : List Out := []
  draws : Nat := 0
  pending : List Instr := []
deriving DecidableEq, Repr

/-- Why the machine stops. -/
inductive Fault where
  /-- A slot word for a core that the part does not have (R19: fused off on a DX224). Raised by the issue of a bundle.
  Safe: the manual gives such a core no sequencer. -/
  | absentCore (c : CoreId)
deriving DecidableEq, Repr

/-- Why a command has no meaning. -/
inductive Refusal where
  /-- An arm whose meaning is not written. Raised by the dispatch. Safe. -/
  | notModelled (mnemonic : String)
deriving DecidableEq, Repr

/-- The state after a cold reset (R406): every register at its reset value, no command waiting. -/
def State.reset : State := {}

end Sys2Proof.Machine
end

