-- ==== Sys2Proof/Machine/Network.lean ====
section
/-! DEFINITION. The package network: arbiters and their counters, stops, routes, slots and entry buffers (R255 to R272). -/

namespace Sys2Proof.Machine

/-! ### Arbiters (R266 to R272) -/

/-- The counters of a requester changed. -/
def countArb (pn : Pn) (kind index requester : Nat) (f : ArbCount → ArbCount) : Pn :=
  let mine (c : ArbCount) : Bool := c.kind == kind && c.index == index && c.requester == requester
  match pn.counts.find? mine with
  | some _ => { pn with counts := pn.counts.map fun c => if mine c then f c else c }
  | none => { pn with counts := pn.counts ++ [f { kind, index, requester }] }

def sat32 (n : Nat) : Nat := min n (2 ^ 32 - 1)

/-- The winners of an arbiter so far, the last one last. -/
def winnersOf (pn : Pn) (kind index : Nat) : List Nat :=
  match pn.ranks.find? (fun r => r.kind == kind && r.index == index) with
  | some r => r.winners
  | none => []

/-- The level of a requester: 0 in COUNTERS_ONLY, the field of its priority register in LIVE_PRIORITY (R272). -/
def arbLevel (pn : Pn) (kind requester : Nat) : Nat :=
  if !pn.arbMode then 0
  else
    let w := if kind = 0 then pn.prioRing else if kind ≤ 2 then pn.prioPort else pn.prioBridge
    fld w (2 * requester + 1) (2 * requester)

/-- Whether requester a ranks above b: higher level, then the rotating order (R267, R272). -/
def arbBefore (pn : Pn) (kind index a b : Nat) : Bool :=
  let ws := winnersOf pn kind index
  let pos (r : Nat) : Nat := if ws.contains r then 16 + ws.idxOf r else r
  let la := arbLevel pn kind a
  let lb := arbLevel pn kind b
  decide (lb < la) || (la == lb && decide (pos a < pos b))

/-- A grant: GRANTS advances and the winner drops to the lowest rank (R267, R271). -/
def grantArb (pn : Pn) (kind index requester : Nat) : Pn :=
  let pn := countArb pn kind index requester fun c => { c with grants := sat32 (c.grants + 1) }
  let ws := (winnersOf pn kind index).filter (· ≠ requester) ++ [requester]
  { pn with ranks := pn.ranks.filter (fun r => !(r.kind == kind && r.index == index)) ++ [{ kind, index, winners := ws }] }

/-- An a-cycle in which a requester asked and was not served (R271). -/
def waitArb (pn : Pn) (kind index requester : Nat) : Pn :=
  countArb pn kind index requester fun c => { c with waits := min (c.waits + 1) (2 ^ 64 - 1), run := c.run + 1 }

/-- A requester is served: its wait, if any, ends in a grant (R271). -/
def servedArb (pn : Pn) (kind index requester : Nat) : Pn :=
  countArb pn kind index requester fun c => { c with maxwait := max c.maxwait (sat32 c.run), run := 0 }

/-! ### Stops and routes (R255, R257, R258) -/

/-- An end of a row's route: the stop of a core, which is that of the column below it, or a unit of the saddle die. -/
inductive NetEnd where
  | stop (i : Nat)
  | saddle
deriving DecidableEq, Repr

/-- Quarter, row and column of a stop (R17, R255), and the stop there. -/
def stopQuarter (i : Nat) : Nat := i / 64
def stopRow (i : Nat) : Nat := i % 64 / 8
def stopCol (i : Nat) : Nat := i % 8
def stopAt (q r c : Nat) : Nat := q * 64 + r * 8 + c

/-- Hops of the shorter way round a ring of eight. -/
def ringDist (a b : Nat) : Nat := min ((b + 8 - a) % 8) ((a + 8 - b) % 8)

/-- The direction with fewer hops, + when both are 4 (R257). -/
def ringPlus (a b : Nat) : Bool := decide ((b + 8 - a) % 8 ≤ 4)

/-- The places on a ring whose links a row takes. -/
def ringPath (a b : Nat) : List Nat :=
  (List.range (ringDist a b)).map fun i => if ringPlus a b then (a + i) % 8 else (a + 8 - i) % 8

/-- A-cycles from a row's leaving to its landing (R258). -/
def netLatency : NetEnd → NetEnd → Nat
  | .stop a, .stop b =>
    if stopQuarter a ≠ stopQuarter b then 5
    else
      let dc := ringDist (stopCol a) (stopCol b)
      let dr := ringDist (stopRow a) (stopRow b)
      let turn := if 0 < dc ∧ 0 < dr then 1 else 0
      (3 + (dc + 1) / 2 + (dr + 1) / 2 + turn + 1) / 2
  | _, _ => 4

/-- Slots that a row takes together (R260): `at_` a-cycles after it left when nothing holds it; the ring's entry buffer that it enters (stop
and direction) and the free slots that it needs there (R262); and the arbiter that admits it (R266). -/
structure NetStage where
  at_ : Nat
  slots : List NetSlot
  entry : Option (Nat × Nat) := none
  need : Nat := 0
  arb : Option (Nat × Nat) := none

/-- The up-spur of a stop and its bridge. -/
def upStages (a : Nat) : List NetStage :=
  [{ at_ := 1, slots := [.upSpur a], arb := some (0, 8 * a + 4) },
   { at_ := 2, slots := [.upBridge (stopQuarter a)], arb := some (3, stopQuarter a) }]

/-- The bridge and the down-spur to a target of a stop, from an a-cycle on. -/
def downStages (b target t : Nat) : List NetStage :=
  [{ at_ := t, slots := [.downBridge (stopQuarter b)], arb := some (4, stopQuarter b) },
   { at_ := t + 1, slots := [.downSpur b] },
   { at_ := t + 2, slots := [.eject b target] }]

/-- The route of a row to a target of its destination: 0 the core, 1 the column port, 2 the async port (R256, R257, R260). -/
def netRoute (src dst : NetEnd) (target : Nat) : List NetStage :=
  match src, dst with
  | .stop a, .stop b =>
    if stopQuarter a ≠ stopQuarter b then upStages a ++ downStages b target 3
    else
      let (q, r) := (stopQuarter a, stopRow a)
      let rowPlus := ringPlus (stopCol a) (stopCol b)
      let colPlus := ringPlus r (stopRow b)
      let row := (ringPath (stopCol a) (stopCol b)).map fun c => NetSlot.rowLink (stopAt q r c) rowPlus
      let col := (ringPath r (stopRow b)).map fun x => NetSlot.colLink (stopAt q x (stopCol b)) colPlus
      (if row.isEmpty then []
        else [{ at_ := 1, slots := row, entry := some (stopAt q r (stopCol b), if rowPlus then 0 else 1), need := 2
                arb := some (0, 8 * a + if rowPlus then 0 else 1) }])
        ++ (if col.isEmpty then []
          else [{ at_ := 2, slots := col, entry := some (b, if colPlus then 2 else 3), need := 2
                  arb := if row.isEmpty then some (0, 8 * a + if colPlus then 2 else 3) else none }])
        ++ [{ at_ := netLatency src dst, slots := [.eject b target] }]
  | .stop a, .saddle => upStages a
  | .saddle, .stop b => downStages b target 2
  | .saddle, .saddle => []

/-! ### Slots in use (R260, R262 to R265) -/

/-- Rows that a slot moves in one a-cycle: 16 at a bridge (R256, R260). -/
def NetSlot.rows : NetSlot → Nat
  | .upBridge _ | .downBridge _ => 16
  | _ => 1

/-- The uses of a slot in an a-cycle that a row of a class must leave alone: a scheduled row takes the slot before any asynchronous one,
but under a guard (R263, R265). -/
def Pn.usesAt (pn : Pn) (sched : Bool) (slot : NetSlot) (t : Nat) : List NetUse :=
  pn.uses.filter fun u => u.slot == slot && u.at_ == t && (!sched || u.cls != .async)

/-- Whether the entry buffer of a class has room for a row in an a-cycle (R262). -/
def Pn.room (pn : Pn) (sched : Bool) (g : NetStage) (t : Nat) : Bool :=
  match g.entry with
  | none => true
  | some (stop, dir) => decide ((pn.stays.filter fun w =>
      w.stop == stop && w.dir == dir && w.sched == sched && decide (w.from_ ≤ t + 1 ∧ t + 1 < w.to_)).length + g.need ≤ 4)

/-- What holds a row at a stage in an a-cycle: the slot, and whether a guard has taken it. -/
def Pn.blocks (pn : Pn) (sched : Bool) (g : NetStage) (t : Nat) : Option (NetSlot × Bool) :=
  match g.slots.find? (fun x => decide (x.rows ≤ (pn.usesAt sched x t).length)) with
  | some x => some (x, (pn.usesAt sched x t).any fun u => u.cls == .guard)
  | none => if pn.room sched g t then none else g.slots.getLast?.map fun x => (x, false)

/-- The a-cycles from t on in which a row is held at a stage; `n` bounds them. -/
def Pn.waitFor (pn : Pn) (sched : Bool) (g : NetStage) : Nat → Nat → List (NetSlot × Nat × Bool)
  | 0, _ => []
  | n + 1, t => match pn.blocks sched g t with
    | none => []
    | some (x, b) => (x, t, b) :: pn.waitFor sched g n (t + 1)

/-- A row on its way: its uses, its stays in entry buffers, its held a-cycles, what they are in all, and the buffer that it is in. -/
structure NetTrip where
  uses : List NetUse := []
  stays : List NetStay := []
  holds : List (NetSlot × Nat × Bool) := []
  inBuf : Option (Nat × Nat × Nat) := none

/-- Held a-cycles after which a row is booked however full its slots are: a stalled row fail-stops first (R274). -/
def netBound : Nat := 4096

/-- Who sends a row: its class, its issuer, its requester number at each arbiter kind, its source's stop, 256 for the saddle, and its number
in an asynchronous transfer of `rows` rows. -/
structure NetFrom where
  cls : NetClass := .sched
  who : NetOwner := { owner := 0, saddle := false, dma := false }
  req : Nat → Nat
  src : Nat
  row : Nat := 0
  rows : Nat := 1

/-- A row that left in a-cycle x takes a stage. -/
def Pn.takeStage (pn : Pn) (f : NetFrom) (x : Nat) (tr : NetTrip) (g : NetStage) : NetTrip :=
  let cls := f.cls
  let t := x + g.at_ + tr.holds.length
  let held := pn.waitFor (cls == .sched) g netBound t
  let t' := t + held.length
  { uses := tr.uses ++ g.slots.map fun slot => {
      slot, at_ := t', cls, owner := f.who, arb := g.arb.map fun a => (a.1, a.2, f.req a.1), src := f.src, req := f.req 0, left := x
      id := pn.sent, row := f.row, rows := f.rows }
    stays := tr.stays ++ match tr.inBuf with
      | some (stop, dir, t0) => if held.isEmpty then [] else [{ stop, dir, sched := cls == .sched, from_ := t0, to_ := t' }]
      | none => []
    holds := tr.holds ++ held
    inBuf := g.entry.map fun e => (e.1, e.2, t' + 1) }

/-- A row books its route. -/
def Pn.trip (pn : Pn) (f : NetFrom) (x : Nat) (gs : List NetStage) : NetTrip := gs.foldl (pn.takeStage f x) {}

/-- The first a-cycle from x on in which a source's requester has sent no row yet: it sends one in an a-cycle (R256); `n` bounds the search. -/
def Pn.turnOf (pn : Pn) (f : NetFrom) : Nat → Nat → Nat
  | 0, x => x
  | n + 1, x => if pn.uses.any fun u => u.src == f.src && u.req == f.req 0 && u.left == x && f.src != 256 then pn.turnOf f n (x + 1) else x

/-- Uses and stays of a-cycles long past are forgotten. -/
def Pn.forget (pn : Pn) (x : Nat) : Pn :=
  { pn with uses := pn.uses.filter fun u => decide (x ≤ u.at_ + netBound), stays := pn.stays.filter fun w => decide (x ≤ w.to_ + netBound) }

/-- A requester is served at the arbiter that admits it, after `n` a-cycles in which it asked and was not (R271). -/
def countServed (pn : Pn) (kind index requester n grants : Nat) : Pn :=
  countArb pn kind index requester fun x => { x with
    grants := sat32 (x.grants + grants), waits := min (x.waits + n) (2 ^ 64 - 1), maxwait := max x.maxwait (sat32 n) }

/-- The row takes its route: its uses and its stays. -/
def Pn.book (pn : Pn) (tr : NetTrip) : Pn := { pn with uses := tr.uses ++ pn.uses, stays := pn.stays ++ tr.stays, sent := pn.sent + 1 }

/-- The asynchronous rows that lose the slots of uses which have just been booked: as many as a slot has rows too many, the earliest booked
(R263). -/
def Pn.losers (pn : Pn) (us : List NetUse) : List NetUse :=
  us.flatMap fun v =>
    let here := pn.uses.filter fun u => u.slot == v.slot && u.at_ == v.at_
    let weak := here.filter (·.cls == .async)
    weak.drop (weak.length - (here.length - v.slot.rows))

/-- A requester waits an a-cycle at the arbiter that admits it (R271). -/
def waitUse (pn : Pn) (u : NetUse) : Pn :=
  match u.arb with
  | some (k, i, r) => countServed pn k i r 1 0
  | none => pn

/-- An asynchronous row moves `d` a-cycles later from a slot on, and the rows that have its slots then move one; `n` bounds them. -/
def Pn.delay : Nat → Nat → Pn → NetUse → Pn
  | 0, _, pn, _ => pn
  | n + 1, d, pn, u =>
    if !pn.uses.contains u then pn
    else
      let mine (x : NetUse) : Bool := x.id == u.id && decide (u.at_ ≤ x.at_)
      let later (x : NetUse) : NetUse := if mine x then { x with at_ := x.at_ + d } else x
      let moved := (pn.uses.filter mine).map later
      let pn := waitUse { pn with uses := pn.uses.map later } u
      (pn.losers moved).foldl (fun pn v => Pn.delay n 1 pn v) pn

/-- The burst limit of an arbiter kind (R268, R276). -/
def Pn.burst (pn : Pn) (kind : Nat) : Nat :=
  if kind = 0 then fld pn.arbBurst 8 0 else if kind ≤ 2 then fld pn.arbBurst 24 16 else fld pn.arbBurst 40 32

/-- The uses that an asynchronous row takes from another: those of the arbiter's slot in a-cycle t, at which a grant would begin of a
requester that its arbiter ranks below it (R267, R268, R272). -/
def Pn.outranked (pn : Pn) (kind index requester t : Nat) : List NetUse :=
  pn.uses.filter fun u => u.cls == .async && u.at_ == t && decide (u.row % max 1 (pn.burst kind) = 0) && match u.arb with
    | some (k, i, r) => k == kind && i == index && arbBefore pn kind index requester r
    | none => false

/-- The a-cycles that a trip was held at its stage's slots. -/
def NetTrip.waits (tr : NetTrip) (g : NetStage) : Nat := (tr.holds.filter fun h => g.slots.contains h.1).length

/-- The counters of the arbiters on a scheduled row's way (R271). -/
def countRoute (req : Nat → Nat) (tr : NetTrip) (pn : Pn) (g : NetStage) : Pn :=
  match g.arb with
  | some (k, i) => countServed pn k i (req k) (tr.waits g) 1
  | none => pn

/-- An asynchronous row leaves in a-cycle x: it waits for slots that others have, and takes that of a row ranked below it, which then waits
(R262, R263, R267, R271). `grant` tells that its arbiters make a new grant, after a transfer or a burst (R268). -/
def Pn.sendAsync (pn : Pn) (f : NetFrom) (x : Nat) (gs : List NetStage) (grant : Bool) : Pn :=
  let pn := pn.forget x
  let weak (g : NetStage) : List NetUse := match g.arb with
    | some (k, i) => pn.outranked k i (f.req k) (x + g.at_)
    | none => []
  let below := gs.flatMap weak
  let tr := { pn with uses := pn.uses.filter fun u => !below.contains u }.trip f x gs
  let pn := pn.book tr
  let pn := (pn.losers tr.uses).foldl (Pn.delay netBound 1) pn
  gs.foldl (fun pn g => match g.arb with
    | some (k, i) =>
      let pn := countServed pn k i (f.req k) (tr.waits g + if grant then 1 else 0) 0
      if grant then grantArb pn k i (f.req k) else pn
    | none => pn) pn

/-- The arbiter at which scheduled rows have the slot of an asynchronous row that would leave in a-cycle x. -/
def Pn.preempter (pn : Pn) (gs : List NetStage) (x : Nat) : Option (Nat × Nat) :=
  (gs.find? fun g => g.arb.isSome && g.slots.any fun sl => decide (sl.rows ≤ (pn.usesAt true sl (x + g.at_)).length)).bind (·.arb)

/-- A grant is preempted (R269, R271). -/
def countPreempted (pn : Pn) (kind index requester : Nat) : Pn :=
  countArb pn kind index requester fun x => { x with preempted := sat32 (x.preempted + 1) }

/-- The a-cycle after that in which the row booked last has left. -/
def Pn.nextLeave (pn : Pn) (gs : List NetStage) (x : Nat) : Nat :=
  match pn.uses.head?, gs.head? with
  | some u, some g => u.at_ + 1 - g.at_
  | _, _ => x + 1

/-- The rows of an asynchronous transfer of n, from number `row` on, leave one after the other from a-cycle x on. A scheduled row that has
the slot of the next row preempts the transfer, which asks again in the a-cycle after and starts with its first (R269, R270); `limit` is the
burst limit, and `fuel` bounds the a-cycles. -/
def Pn.sendTransfer (f : NetFrom) (gs : List NetStage) (n limit : Nat) : Nat → Nat → Nat → Pn → Pn
  | 0, _, _, pn => pn
  | fuel + 1, row, x, pn =>
    if n ≤ row then pn
    else match if row = 0 then none else pn.preempter gs x with
      | some (k, i) => Pn.sendTransfer f gs n limit fuel 0 (x + 2) (countPreempted pn k i (f.req k))
      | none =>
        let pn := pn.sendAsync { f with row, rows := n } x gs (row % limit == 0)
        Pn.sendTransfer f gs n limit fuel (row + 1) (pn.nextLeave gs x) pn

/-- `n` asynchronous rows of one transfer leave one after the other from a-cycle x on. -/
def Pn.sendAsyncRows (pn : Pn) (f : NetFrom) (x n : Nat) (gs : List NetStage) : Pn :=
  let limit := max 1 (match gs.head?.bind (·.arb) with
    | some (k, _) => pn.burst k
    | none => 1)
  pn.sendTransfer f gs n limit (n + netBound) 0 x

/-! ### Rows of the saddle readers, and scheduled rows that displace them (R257, R263, R269) -/

/-- Rows that leave a stop for the saddle die asynchronously are those of requester `r` at the up-spur, and of 8 at the bridge (R266). -/
def fromStop (i r : Nat) : NetFrom := { cls := .async, src := i, req := fun k => if k = 0 then r else 8 }

/-- A-cycles from a row's leaving for the saddle die to its slot at the spur, or at the bridge (R258). -/
def NetSlot.upAt : NetSlot → Nat
  | .upSpur _ => 1
  | .upBridge _ => 2
  | _ => 0

/-- An asynchronous row loses its slot to a scheduled one and waits (R263). At an arbiter its transfer is preempted: it asks again in the next
a-cycle, and starts with its first row in the a-cycle after that (R269, R270). -/
def Pn.putOff (pn : Pn) (u : NetUse) : Pn :=
  if !pn.uses.contains u then pn
  else match u.arb with
    | none => pn.delay netBound 1 u
    | some (k, i, r) =>
      let pn := countPreempted pn k i r
      if u.src = 256 then countServed (pn.delay netBound 2 u) k i r 0 1
      else
        let unsent (x : NetUse) : Bool := x.cls == .async && x.src == u.src && x.req == u.req && x.rows == u.rows
          && x.left + u.row == u.left + x.row && decide (u.row ≤ x.row ∧ u.at_ ≤ x.at_)
        { pn with uses := pn.uses.filter fun x => !unsent x }.sendAsyncRows (fromStop u.src u.req) (u.at_ + 2 - u.slot.upAt) u.rows
          (netRoute (.stop u.src) .saddle 0)

/-- A scheduled row leaves in a-cycle x (R260, R263, R264): the network with its slots taken, and the a-cycles in which it is held. -/
def Pn.sendRow (pn : Pn) (f : NetFrom) (x : Nat) (gs : List NetStage) : Pn × List (NetSlot × Nat × Bool) :=
  let pn := pn.forget x
  let tr := pn.trip f (pn.turnOf f netBound x) gs
  let pn := gs.foldl (countRoute f.req tr) (pn.book tr)
  ((pn.losers tr.uses).foldl Pn.putOff pn, tr.holds)

/-- The slot of a place of the network (R276), and the stop whose a-cycles it follows. `out` tells the ring output, or the target of an
ejection. -/
def placeSlot (w : NetPlace) : NetSlot :=
  let i := w.stop.toNat
  let o := w.out.toNat
  match w.place.toNat with
  | 0 => if o < 2 then .rowLink i (o == 0) else .colLink i (o == 2)
  | 1 => .upSpur i
  | 2 => .upBridge (i % 4)
  | 3 => .downBridge (i % 4)
  | 4 => .downSpur i
  | _ => .eject i o

/-- WHERE and STOP of PN_HOLD_FIRST for a slot (R276), and the quarter that counts its holds. -/
def NetSlot.where_ : NetSlot → Nat
  | .rowLink .. | .colLink .. => 0
  | .upSpur _ => 1
  | .upBridge _ => 2
  | .downBridge _ => 3
  | .downSpur _ => 4
  | .eject .. => 5

def NetSlot.stop : NetSlot → Nat
  | .rowLink i _ | .colLink i _ | .upSpur i | .upBridge i | .downBridge i | .downSpur i | .eject i _ => i

def NetSlot.quarter (x : NetSlot) : Nat := if x.rows = 16 then x.stop else stopQuarter x.stop

/-- The low bit of the field of PN_SCHED_HOLD that counts a hold (R276). -/
def NetSlot.holdLo (x : NetSlot) (guard : Bool) : Nat :=
  if guard then 0 else if x.rows = 16 then 32 else match x with
    | .eject .. => 16
    | _ => 48

end Sys2Proof.Machine
end

