-- ==== Sys2Proof/Machine/Ops.lean ====
section
/-! DEFINITION. Named operations over the stores and registers: byte memories, cores, counters, faults of a core,
fail-stop of the package, code errors, and what leaves the device. -/

namespace Sys2Proof

open Sys2Proof.Machine

/-- Virtual channel of a kind (R325). -/
def PktKind.vc : PktKind → BitVec 3
  | .chRow | .cqRow => 0
  | .resp | .credit | .peerReset => 1
  | .chOpen | .join => 2
  | .tgArrived => 3
  | .wsCtrl => 4
  | .wsChunk => 5
  | .mirror => 6
  | .heartbeat | .time | .reserved => 7

/-- Whether a packet expects a response (R330): handshakes, the LAST row of a message or a contribution, a mirror row with
ACKREQ. PAD and CLOSE records draw none (R227, R234); the sender marks them in `word`. -/
def Pkt.expectsResp (p : Pkt) : Bool :=
  match p.kind with
  | .chOpen | .join => true
  | .chRow => bit p.arg 51 && p.word == 0
  | .cqRow => bit p.arg 47
  | .mirror => bit p.arg 26
  | _ => false

/-- What a response answers: 0 a message, 1 CH.OPEN, 2 CQ.JOIN, 3 a contribution, 4 a mirror row. -/
def PktKind.answerClass : PktKind → Word
  | .chOpen => 1
  | .join => 2
  | .cqRow => 3
  | .mirror => 4
  | _ => 0

/-- The RESP to a request, in the layout of R330. `word` tells in its low six bits what the response answers, and above
them what it carries beside R330's fields (log entry 21). -/
def Pkt.reply (p : Pkt) (status reason credit : Nat) (extra : Word := 0) : Pkt :=
  let seq := match p.kind with
    | .chRow => fld p.arg 34 0
    | _ => 0
  { kind := .resp, vc := 1, epoch := p.epoch, dsad := p.ssad, ssad := p.dsad
    dstSvc := p.srcSvc, dstChip := p.srcChip, dstPinc := p.srcPinc, srcSvc := p.dstSvc
    dstUnit := p.srcUnit, srcUnit := p.dstUnit, dstInc := p.srcInc, srcInc := p.dstInc, dstEp := p.srcEp, srcEp := p.dstEp
    arg := fw 63 60 status ||| fw 59 56 reason ||| fw 55 35 credit ||| fw 34 0 seq
    word := p.kind.answerClass ||| extra, fabric := p.fabric }

/-- Flits of a packet: HEAD and one BODY for each 32 bytes. -/
def Pkt.flits (p : Pkt) : Nat := 1 + p.body.length / 32

/-- Whether two packets are of one flow: rows of one class between one source and one destination, on a fabric those of one channel and
epoch besides (R261, R336). -/
def Pkt.sameFlow (p q : Pkt) : Bool :=
  p.srcUnit == q.srcUnit && p.ssad == q.ssad && p.dstUnit == q.dstUnit && p.dsad == q.dsad && p.fabric == q.fabric
    && (!p.fabric || (p.kind == q.kind && p.dstEp == q.dstEp && p.epoch == q.epoch))

end Sys2Proof

namespace Sys2Proof.Machine

/-- What every meaning answers. -/
abbrev Res := Host.Outcome State Fault Refusal

/-! ### Byte memories -/

/-- The byte at an address; one that is not listed reads as zero (log entry 5). -/
def Mem.get (m : Mem) (a : Nat) : Byte := (m.lookup a).getD 0

/-- `len` bytes from an address. -/
def Mem.read (m : Mem) (a len : Nat) : List Byte := (List.range len).map fun i => Mem.get m (a + i)

/-- The cells that bytes written from an address list: zero bytes are not listed. -/
def cellsFrom : Nat → List Byte → Mem
  | _, [] => []
  | a, b :: bs => if b = 0 then cellsFrom (a + 1) bs else (a, b) :: cellsFrom (a + 1) bs

/-- Bytes written from an address on. -/
def Mem.write (m : Mem) (a : Nat) (bs : List Byte) : Mem :=
  m.filter (fun c => c.1 < a) ++ cellsFrom a bs ++ m.filter (fun c => a + bs.length ≤ c.1)

/-- The canonical form: addresses strictly rising, no zero byte. -/
abbrev Mem.wf (m : Mem) : Prop := m.Pairwise (fun a b => a.1 < b.1) ∧ ∀ c ∈ m, c.2 ≠ 0

/-- Little-endian word of `len` bytes. -/
def Mem.num (m : Mem) (a len : Nat) : Nat := ofLe (Mem.read m a len)

def Mem.word (m : Mem) (a : Nat) : Word := BitVec.ofNat 64 (Mem.num m a 8)

def Mem.setWord (m : Mem) (a : Nat) (w : Word) : Mem := Mem.write m a (wordBytes w)

/-! ### Cores and vectors of units -/

/-- Element i of a vector, the default beyond its end. -/
def vget {α : Type} [Inhabited α] {n : Nat} (v : Vector α n) (i : Nat) : α := v.toArray.getD i default

/-- Element i of a vector replaced; nothing beyond its end. -/
def vset {α : Type} {n : Nat} (v : Vector α n) (i : Nat) (x : α) : Vector α n := v.setIfInBounds i x

def vmod {α : Type} {n : Nat} (v : Vector α n) (i : Nat) (f : α → α) : Vector α n :=
  match v[i]? with
  | some x => v.setIfInBounds i (f x)
  | none => v

def State.core (s : State) (c : CoreId) : CoreSt := s.cores[c.toNat]'c.isLt

def State.setCore (s : State) (c : CoreId) (k : CoreSt) : State := { s with cores := s.cores.set c.toNat k c.isLt }

def State.modCore (s : State) (c : CoreId) (f : CoreSt → CoreSt) : State := s.setCore c (f (s.core c))

def State.modSq (s : State) (c : CoreId) (f : Sq → Sq) : State := s.modCore c fun k => { k with sq := f k.sq }
def State.modMe (s : State) (c : CoreId) (f : Me → Me) : State := s.modCore c fun k => { k with me := f k.me }
def State.modVe (s : State) (c : CoreId) (f : Ve → Ve) : State := s.modCore c fun k => { k with ve := f k.ve }
def State.modCm (s : State) (c : CoreId) (f : Cm → Cm) : State := s.modCore c fun k => { k with cm := f k.cm }
def State.modDma (s : State) (c : CoreId) (f : Dma → Dma) : State := s.modCore c fun k => { k with dma := f k.dma }
def State.modCq (s : State) (c : CoreId) (f : Cq → Cq) : State := s.modCore c fun k => { k with cq := f k.cq }

/-- Core memory bytes of a core. -/
def State.cmRead (s : State) (c : CoreId) (a len : Nat) : List Byte := Mem.read (s.core c).cm.mem a len

def State.cmWrite (s : State) (c : CoreId) (a : Nat) (bs : List Byte) : State :=
  s.modCm c fun m => { m with mem := Mem.write m.mem a bs }

/-- Stepping A1 of an ordering code (R19). -/
def Part.isA1 : Part → Bool
  | .dx256a1 | .dx224a1 => true
  | _ => false

/-- Grade DX224 (R19). -/
def Part.is224 : Part → Bool
  | .dx224a1 | .dx224b0 => true
  | _ => false

/-- Whether a core is fused off: column 7 of every quarter of a DX224 (R19). -/
def State.fusedOff (s : State) (c : CoreId) : Bool := s.part.is224 && c.toNat % 8 == 7

/-- Quarter of a core or a tier column (R16, R17). -/
def quarterOf (c : CoreId) : Nat := c.toNat / 64

/-! ### What leaves the device, and free values -/

/-- What leaves the package or a unit is appended in order (log entry 8). -/
def State.emit (s : State) (o : Out) : State := { s with out := s.out ++ [o] }

/-- A KDMP report leaves for the host; SEQ counts from 0 at each reset (R418). -/
def State.report (s : State) (kind : Nat) (body : List Byte) : State :=
  { s with out := s.out ++ [.kdmp kind s.ms.reports body], ms := { s.ms with reports := s.ms.reports + 1 } }

/-- A random 64-bit word of the management controller's entropy source; no one can say its value (log entry 4). -/
def State.draw (s : State) : Word × State := (Config.entropy s.draws, { s with draws := s.draws + 1 })

/-- `n` draws of 64 bits. -/
def State.drawN : Nat → State → List Word × State
  | 0, s => ([], s)
  | n + 1, s =>
    let (w, s) := s.draw
    let (ws, s) := State.drawN n s
    (w :: ws, s)

/-- MS_FAULT takes the first fault of the management controller (R427). -/
def State.msFault (s : State) (code : Nat) : State :=
  let w := fw 63 48 code ||| fw 47 40 s.ms.phase.toNat ||| fw 31 0 s.ck.ns.toNat
  { s with ms := { s.ms with fault := if s.ms.fault = 0 then w else s.ms.fault } }

/-- A boot fault (R405, R428): MS_FAULT takes the first, MS_BOOT.LAST_FAULT names it, FAIL_N is asserted, START_FAULT leaves
when the host link is up. -/
def State.startFault (s : State) (code : Nat) (detail : Word) : State :=
  let s := s.msFault code
  let s : State := { s with ms := { s.ms with lastFault := BitVec.ofNat 16 code }, cu := { s.cu with failN := true } }
  if bit s.hp.portStatus 1 then s.report 0x06 (leBytes 2 code ++ [s.ms.phase] ++ wordBytes detail) else s

/-- Milestone nanoseconds of the device (R435). -/
def State.now (s : State) : Word := s.ck.ns

/-! ### The router (R325 to R339) -/

/-- FI_IDENT.CHIP: tray of FI_P0_EXPECT.CHIP with the strapped slot (R331, R346). -/
def State.chip (s : State) : BitVec 16 :=
  BitVec.ofNat 16 (fld (s.fi.ports[0]).expect 39 27 * 8 + s.slot.toNat)

def State.modPort (s : State) (p : Nat) (f : FiPort → FiPort) : State :=
  { s with fi := { s.fi with ports := vmod s.fi.ports p f } }

/-- Blocks of a port's replay buffer (R319). -/
def replayCap (p : Nat) : Nat := if p < 6 then 512 else 2048

/-- The channel whose packet leaves next: 1, then 3, then the others in rotation; a held or empty one is passed over
(R327). -/
def FiPort.nextVc (p : FiPort) : Option Nat :=
  let others := [0, 2, 4, 5, 6, 7]
  let order := [1, 3] ++ others.drop p.rotate ++ others.take p.rotate
  order.find? fun v => !bit p.xoffTx v && p.egress.any (fun k => k.vc.toNat == v)

/-- The lane of block k: the k-th active lane in ascending order, cyclically (R317). -/
def FiPort.laneOf (p : FiPort) (k : Nat) : Option Nat :=
  let active := (List.range 12).filter fun i => bit p.laneMap i
  active[k % active.length]?

/-- The lanes of the n blocks that are sent next. -/
def FiPort.nextLanes (p : FiPort) (n : Nat) : List Nat := (List.range n).map fun i => (p.laneOf (p.txBlock + i)).getD 0

/-- Packets leave a port while it is UP, a channel is ready and the replay buffer has room (R319, R321, R327). A packet
takes whole blocks of eight flits (log entry 20). -/
def drainPort : Nat → Nat → State → State
  | 0, _, s => s
  | n + 1, i, s =>
    let p := vget s.fi.ports i
    if p.st ≠ .up then s
    else match p.nextVc with
      | none => s
      | some v =>
        if replayCap i ≤ p.replay.length then s.modPort i fun p => { p with link := satAdd p.link 23 8 1 }
        else match p.egress.find? (fun k => k.vc.toNat == v) with
          | none => s
          | some k =>
            let blocks := (k.flits + 7) / 8
            let s := s.modPort i fun p => { p with
              egress := p.egress.erase k
              rotate := match [0, 2, 4, 5, 6, 7].findIdx? (· == v) with
                | some j => (j + 1) % 6
                | none => p.rotate
              txPktNow := p.txPktNow + 1, txByteNow := p.txByteNow + k.body.length
              txNext := p.txNext + BitVec.ofNat 16 blocks
              replay := p.replay ++ (List.range blocks).map fun j => (p.txNext + BitVec.ofNat 16 j, 0)
              txBlock := p.txBlock + blocks, txLanes := p.txLanes ++ p.nextLanes blocks }
            drainPort n i (s.emit (.packet k))

def State.drainEgress (s : State) (i : Nat) : State := drainPort (vget s.fi.ports i).egress.length i s

/-- The routing entry of a service ID in a bank (R335, R348). -/
def State.route (s : State) (b : Bool) (svc : BitVec 16) : BitVec 32 :=
  BitVec.ofNat 32 (Mem.num (if b then s.fi.rtB else s.fi.rtA) (4 * svc.toNat) 4)

/-- The ports that an entry names, as bit numbers. -/
def entryPorts (e : BitVec 32) : List Nat := (List.range 8).filter fun i => bit e (16 + i)

/-- The port that routing bit b drives: P6 and P7 are exchanged when SWAP_FAR is set (R332). -/
def State.portOf (s : State) (b : Nat) : Nat := if bit s.fi.portMap 0 ∧ 6 ≤ b then 13 - b else b

/-- A request that the router refuses at egress is answered with PEER_RESET, as its target would (R335). -/
def State.refuseAtEgress (s : State) (p : Pkt) : State :=
  if p.expectsResp then { s with net := s.net ++ [{ p.reply 2 7 0 with fabric := false }] } else s

/-- A packet is injected into the router (R333, R335, R338): looked up in the active bank, it leaves on the port that its
units select, or is turned round when its chip is the package's own. -/
def State.inject (s : State) (p : Pkt) (key : Option (BitVec 16) := none) : State :=
  let e := s.route s.fi.epoch p.dstSvc
  let s := { s with fi := { s.fi with rtStat := satAdd s.fi.rtStat 63 32 1 } }
  let ports := entryPorts e
  let k := vget s.fi.pkey (fld e 25 24)
  if !bit e 31 || ports.isEmpty then
    ({ s with fi := { s.fi with rtStat := satAdd s.fi.rtStat 31 0 1 } } : State).refuseAtEgress p
  else if key.isNone && (!bit k 63 || fld k 15 0 == 0) then s.refuseAtEgress p
  else
    let answer := p.kind == .resp || p.kind == .credit
    let q : Pkt := { p with
      vc := p.kind.vc
      epoch := if answer then p.epoch else s.fi.epoch
      pkey := match key with
        | some x => x
        | none => BitVec.ofNat 16 (fld k 15 0)
      dstChip := if answer then p.dstChip else BitVec.ofNat 16 (fld e 15 0)
      srcSvc := s.svc, srcChip := s.chip, srcPinc := s.pinc
      fabric := true }
    let s := if p.expectsResp then { s with fi := { s.fi with awaited := s.fi.awaited ++ [{ q with body := [] }] } } else s
    if q.dstChip = s.chip then { s with net := s.net ++ [q] }
    else
      let b := ports.getD ((p.srcUnit.toNat + p.dstUnit.toNat + p.dstEp.toNat) % ports.length) 0
      let i := s.portOf b
      let s := s.modPort i fun x => { x with egress := x.egress ++ [{ q with port := BitVec.ofNat 3 i }] }
      s.drainEgress i

/-! ### Counters and deviations -/

/-- A 64-bit counter advanced, saturating (R12). -/
def satWord (w : Word) (k : Nat) : Word := BitVec.ofNat 64 (min (w.toNat + k) (2 ^ 64 - 1))

/-- A deviation source is active in `n` a-cycles from the present one on (R139): SQ_DEV_TOTAL counts those that no other source has
had counted, and SQ_DEV_FIRST is set when it is clear. -/
def Sq.deviate (q : Sq) (source n : Nat) : Sq :=
  { q with
    devTotal := satWord q.devTotal (n - q.counted)
    counted := max q.counted n
    devFirst :=
      if bit q.devFirst 63 then q.devFirst
      else fw 63 63 1 ||| fw 62 56 source ||| fw 44 13 q.cycle.toNat ||| fw 12 0 q.pc.toNat }

/-- A fault register that keeps its first fault, and a record of the first hold. -/
def firstFault (old new : Word) : Word := if old = 0 then new else old

/-! ### Rows in the network (R255 to R265) -/

/-- One held a-cycle of a scheduled row (R264, R265): PN_SCHED_HOLD of the quarter, PN_HOLD_FIRST, and a deviation on the issuing core. -/
def heldRow (who : NetOwner) (s : State) (h : NetSlot × Nat × Bool) : State :=
  let (slot, t, guard) := h
  let q := (s.core who.owner).sq
  let cycle := if who.saddle then s.ck.ns.toNat else q.cycle.toNat + (t - q.clk)
  let first := fw 63 63 1 ||| fw 62 60 slot.where_ ||| fw 59 58 (if guard then 1 else 0) ||| fw 55 48 slot.stop ||| fw 47 40 who.owner.toNat
    ||| fw 32 32 (if who.saddle then 1 else 0) ||| fw 31 0 cycle
  let lo := slot.holdLo guard
  let s := { s with pn := { s.pn with
    schedHold := vmod s.pn.schedHold slot.quarter fun x => satAdd x (lo + 15) lo 1
    holdFirst := firstFault s.pn.holdFirst first } }
  if who.saddle then s
  else s.modSq who.owner fun q => q.deviate (if who.dma then 0x03 else 0x13) 1

/-- A scheduled row leaves in a-cycle x: its slots are taken, and its held a-cycles counted; with their number. -/
def State.rowLeaves (s : State) (f : NetFrom) (x : Nat) (gs : List NetStage) : State × Nat :=
  let (pn, holds) := s.pn.sendRow f x gs
  (holds.foldl (heldRow f.who) { s with pn }, holds.length)

/-- The ends of a packet's way inside the package: one for another package goes to the router (R339). -/
def pktFrom (p : Pkt) : NetEnd := if p.ssad then .saddle else .stop p.srcUnit.toNat
def pktTo (p : Pkt) : NetEnd := if p.dsad || p.fabric then .saddle else .stop p.dstUnit.toNat

/-- Whether a packet's row is scheduled (R263): a core's CQ unit or a saddle combining queue sends it. -/
def pktScheduled (p : Pkt) : Bool := !p.ssad || p.srcUnit == 0

/-- Who sends a packet (R266): the CQ unit is requester 0; at a down-bridge rows of other quarters are 0 and saddle queues 1, and of the
asynchronous ones the router is 8, the host port 9, the management controller 10 and the continuity unit 11. -/
def pktSender (p : Pkt) : NetFrom :=
  if pktScheduled p then
    { who := { owner := if p.ssad then p.srcEp else p.srcUnit, saddle := p.ssad, dma := false }
      req := fun k => if k = 4 ∧ p.ssad then 1 else 0, src := if p.ssad then 256 else p.srcUnit.toNat }
  else
    { cls := .async, src := 256
      req := fun _ => match p.srcUnit.toNat with
        | 1 => 9
        | 2 => 10
        | 3 => 11
        | _ => 8 }

/-- The a-cycle of a packet's leaving: the present one of the core at its source, or of that at its destination. -/
def State.rowClk (s : State) (p : Pkt) : Nat :=
  match pktFrom p, pktTo p with
  | .stop a, _ | .saddle, .stop a => (s.core (BitVec.ofNat 8 a)).sq.clk
  | _, _ => 0

/-- A packet's row leaves in a-cycle x; with the a-cycles in which it is held. -/
def State.booked (s : State) (p : Pkt) (x : Nat) : State × Nat :=
  let gs := netRoute (pktFrom p) (pktTo p) 0
  if gs.isEmpty then (s, 0)
  else if pktScheduled p then s.rowLeaves (pktSender p) x gs
  else ({ s with pn := s.pn.sendAsync (pktSender p) x gs true }, 0)

/-- `n` asynchronous rows leave a stop for the saddle die in the stop's present a-cycle: they are those of requester `r` at the up-spur, and
of 8 at the bridge (R257, R266). -/
def State.rowsUp (s : State) (i r n : Nat) : State :=
  { s with pn := s.pn.sendAsyncRows (fromStop i r) (s.core (BitVec.ofNat 8 i)).sq.clk n (netRoute (.stop i) .saddle 0) }

/-- A packet is on its way: inside the package, or out through the router. -/
def State.put (s : State) (p : Pkt) : State := if p.fabric then s.inject p else { s with net := s.net ++ [p] }

/-- A packet leaves in the present a-cycle. -/
def State.send (s : State) (p : Pkt) : State := (s.booked p (s.rowClk p)).1.put p

/-- Whether a bank of the routing table is BUSY (R337, R338): the target of a COPY, or left by a FLIP with requests that
await their RESP. -/
def Fi.bankBusy (f : Fi) (b : Bool) : Bool :=
  b != f.epoch && (f.copying || (f.left == some b && f.awaited.any (fun p => p.epoch == b)))

/-- Requests of an epoch that await their RESP (R338). -/
def Fi.inFlight (f : Fi) (b : Bool) : Nat := (f.awaited.filter fun p => p.epoch == b).length

def State.ingStat (s : State) (hi lo : Nat) : State :=
  { s with fi := { s.fi with ingStat := satAdd s.fi.ingStat hi lo 1 } }

/-- The request that a RESP answers is no longer awaited (R338). A RESP names its unit and endpoint, and for a message its
SEQ. -/
def State.settle (s : State) (r : Pkt) : State :=
  let mine (p : Pkt) : Bool := p.srcUnit == r.dstUnit && p.ssad == r.dsad && p.srcEp == r.dstEp && p.srcInc == r.dstInc
    && (p.kind != .chRow || fld p.arg 34 0 == fld r.arg 34 0)
  match s.fi.awaited.find? mine with
  | some p => { s with fi := { s.fi with awaited := s.fi.awaited.erase p } }
  | none => s

/-- XOFF of a port's channels after their occupancy changed (R326). -/
def FiPort.flowControl (p : FiPort) (vcCfg : Word) : FiPort :=
  { p with xoffRx := (List.range 8).foldl (fun x v =>
      let d := (vget p.vcs v).depth
      if fld vcCfg 45 32 ≤ d then x ||| 1#8 <<< v else if d ≤ fld vcCfg 13 0 then x &&& ~~~(1#8 <<< v) else x) p.xoffRx }

/-! ### The passing of time -/

/-- A DRAINING tile whose last row has been read is FREE (R76, R106). -/
def Tile.settle (clk : Nat) (t : Tile) : Tile :=
  if t.st = .draining ∧ t.freeAt ≤ clk then {} else t

/-- `n` a-cycles pass on a core: its own count, SQ_CYCLE while in RUN (R148), the release of drained tiles, the wait of the head row of
the async port (R162), and the marks of W1C bits set in the c-cycle, which is two a-cycles (R10, R468). -/
def CoreSt.bulk (k : CoreSt) (n : Nat) : CoreSt :=
  let clk := k.sq.clk + n
  let waits := if k.cm.asyncBuf.isEmpty || k.cm.headServed then 0 else n
  { k with
    sq := { k.sq with
      clk := clk
      counted := k.sq.counted - n
      cycle := if k.sq.st = .run then k.sq.cycle + BitVec.ofNat 64 n else k.sq.cycle }
    me := { k.me with tiles := k.me.tiles.map (Tile.settle clk) }
    ve := if clk / 2 = k.sq.clk / 2 then k.ve else { k.ve with stickyNow := 0, drainNow := 0 }
    cm := { k.cm with headWait := k.cm.headWait + waits, asyncStat := satAdd k.cm.asyncStat 47 24 waits } }

/-! ### Banks and ports (R155 to R159, R166, R178) -/

/-- The bank that holds a core-memory byte (R152). -/
def cmBank (a : Nat) : Nat := a / 2 ^ 20 % 8 * 4 + a / 2 ^ 8 % 4

/-- The banks that an access asks for, with their rows; a port has the number 0. -/
def MemAsk.units (a : MemAsk) : List (Nat × Nat) :=
  a.rows.map fun r => (match a.port with
    | .bank => cmBank (256 * r)
    | _ => 0, r)

def MemAsk.uses (a : MemAsk) : List PortUse :=
  a.units.map fun u => { port := a.port, unit := u.1, row := u.2, code := a.code, write := a.write }

def PortUse.meets (x : PortUse) (port : MemPort) (unit : Nat) : Bool := x.port == port && x.unit == unit

/-- What keeps an access from being served in its a-cycle: another access that has a bank of it, or, for a read, a held write to one
of its banks (R157, R158). The record of a first hold names the first of its banks in ascending row; of several first holds in one
a-cycle it takes that of the first in the order of R157 (DESIGN CHOICE, log entry 108). -/
def MemAsk.blocker (a : MemAsk) (inUse : List (Nat × PortUse)) : Option (Nat × Nat × PortUse) :=
  a.units.findSome? fun u =>
    match inUse.find? (fun e => !e.2.held && e.2.meets a.port u.1) with
    | some e => some (u.1, u.2, e.2)
    | none =>
      if a.write then none
      else (inUse.find? fun e => e.2.held && e.2.meets a.port u.1).map fun e => (u.1, u.2, e.2)

/-- One held a-cycle of a scheduled access (R159, R166, R178): its counter, the record of the first, and a deviation. -/
def CoreSt.heldAt (k : CoreSt) (a : MemAsk) (unit row : Nat) (x : PortUse) : CoreSt :=
  match a.port with
  | .tierRead | .tierWrite =>
    { k with
      dma := { k.dma with hold := satAdd k.dma.hold 63 48 1 }
      sq := k.sq.deviate 0x03 1 }
  | p =>
    let kind := if p ≠ .bank then 3 else if x.code = 14 then 2 else if !a.write && x.write && x.row == row then 0 else 1
    let lo := match kind with
      | 0 => 48
      | 1 => 32
      | 2 => 16
      | _ => 0
    { k with
      cm := { k.cm with
        collide := satAdd k.cm.collide (lo + 15) lo 1
        collideFirst := firstFault k.cm.collideFirst (fw 63 63 1 ||| fw 62 61 kind ||| fw 60 56 unit
          ||| fw 55 46 (if p = .bank then row / 4 % 1024 else row) ||| fw 45 42 x.code ||| fw 41 38 a.code
          ||| fw 31 0 k.sq.cycle.toNat) }
      sq := k.sq.deviate 0x12 1 }

/-- One a-cycle of arbitration: the core, the accesses served in it, in order, and those held. -/
structure PortRound where
  k : CoreSt
  served : List MemAsk := []
  held : List MemAsk := []

/-- The next access in the order of R157 is served, or held. A narrow write keeps its bank for two further a-cycles (R154). -/
def PortRound.serve (r : PortRound) (a : MemAsk) : PortRound :=
  match a.blocker r.k.cm.inUse with
  | none => { r with
      served := r.served ++ [a]
      k := { r.k with cm := { r.k.cm with
        asks := r.k.cm.asks.erase a
        inUse := r.k.cm.inUse ++ a.uses.map fun u => (r.k.sq.clk + if a.narrow then 2 else 0, u) } } }
  | some (unit, row, x) =>
    let k := r.k.heldAt a unit row x
    { r with
      k := if a.write then
        { k with cm := { k.cm with inUse := k.cm.inUse ++ a.uses.map fun u => (k.sq.clk, { u with held := true }) } } else k
      held := r.held ++ [a] }

/-- An access of a DMA queue to a column port. -/
def MemAsk.atColumn (a : MemAsk) : Bool := (a.port == .tierRead || a.port == .tierWrite) && decide (8 ≤ a.code ∧ a.code ≤ 11)

/-- Whether an access is delayed by the held ones (R159): it is held itself, it follows a held one in its instruction's order, or it
is a write whose source read is still to be made and follows one. A hold of a DMA queue at a column port delays the later descriptors
of the queue too (R178). -/
def MemAsk.moves (a : MemAsk) (asks : List MemAsk) (held : List MemAsk) : Bool :=
  held.any fun h =>
    (h.id == a.id && (h.seq == a.seq || match a.src with
      | none => decide (h.seq < a.seq)
      | some r => decide (h.seq ≤ r) && asks.any fun b => b.id == a.id && b.seq == r))
    || (h.atColumn && h.code == a.code && decide (h.id < a.id))

def Stamp.later : Stamp → Stamp
  | .reg n t => .reg n (t + 1)
  | .td i t => .td i (t + 1)
  | .vob lo t => .vob lo (t + 1)
  | .mov t => .mov (t + 1)
  | .wsPath t => .wsPath (t + 1)
  | .cmPath t => .cmPath (t + 1)
  | .mSlot t => .mSlot (t + 1)
  | .beat path t => .beat path (t + 1)

/-- An event timed from a held access moves by an a-cycle (R86, R116, R117, R159). -/
def CoreSt.stampLater (k : CoreSt) : Stamp → CoreSt
  | .reg n t => { k with sq := { k.sq with avail := k.sq.avail.map fun e => if e = (n, t) then (n, t + 1) else e } }
  | .td i t => { k with me := { k.me with tdAt := vmod k.me.tdAt i fun x => if x = t then t + 1 else x } }
  | .vob lo t => { k with ve := { k.ve with
      writes := k.ve.writes.map fun u => if u.lo = lo ∧ u.at_ = t then { u with at_ := t + 1 } else u } }
  | .mov t => { k with ve := { k.ve with unitFree := vmod k.ve.unitFree 5 fun x => if x = t then t + 1 else x } }
  | .wsPath t =>
    if k.me.wsFree = t then { k with me := { k.me with wsFree := t + 1, portUntil := k.me.portUntil + 1 } } else k
  | .cmPath t => if k.me.cmFree = t then { k with me := { k.me with cmFree := t + 1 } } else k
  | .mSlot t =>
    if k.me.mFree = t then { k with me := { k.me with mFree := t + 1, arrayUntil := k.me.arrayUntil + 1 } } else k
  | .beat path t =>
    let later (l : List PendLoad) : List PendLoad := l.map fun x => if x.at_ = t then { x with at_ := t + 1 } else x
    { k with me := match path with
      | .wstream => { k.me with pendWs := later k.me.pendWs }
      | .cm => { k.me with pendCm := later k.me.pendCm } }

/-- A register that waits for a held access becomes available with it. -/
def CoreSt.alignRegs (k : CoreSt) : CoreSt :=
  let late := k.cm.asks.flatMap fun a => a.stamps
  let align (e : BitVec 7 × Nat) (x : Stamp) : BitVec 7 × Nat := match x with
    | .reg n t => if n = e.1 ∧ e.2 < t then (n, t) else e
    | _ => e
  { k with sq := { k.sq with avail := k.sq.avail.map fun e => late.foldl align e } }

/-- The order of R157: writes before reads, the lower requester first. -/
def portOrder (due : List MemAsk) : List MemAsk :=
  (List.range 16).flatMap (fun c => due.filter fun a => a.write && a.code == c)
    ++ (List.range 16).flatMap fun c => due.filter fun a => !a.write && a.code == c

/-- The address of a row that waits at the async port. -/
def AsyncRow.addr : AsyncRow → Nat
  | .write a _ _ => a
  | .read a _ _ => a
  | .mgmtRead a => a
  | .message _ a => a

/-- A bank that no access has in the present a-cycle. -/
def CoreSt.bankFree (k : CoreSt) (bank : Nat) : Bool :=
  !k.cm.inUse.any fun e => decide (k.sq.clk ≤ e.1) && e.2.meets .bank bank

/-- The guard of the async port takes the head row's bank, before every scheduled access and after a narrow write in progress (rules 1
and 2 of R157, R163). -/
def CoreSt.guardTakes (k : CoreSt) : CoreSt :=
  match k.cm.guardAt, k.cm.asyncBuf with
  | some t, row :: _ =>
    let bank := cmBank row.addr
    if k.sq.clk < t ∨ !k.bankFree bank then k
    else { k with cm := { k.cm with
      guardAt := none, headServed := true
      inUse := k.cm.inUse ++ [(k.sq.clk, { port := .bank, unit := bank, row := row.addr / 256, code := 14, write := false })] } }
  | _, _ => k

/-- The accesses that ask in the present a-cycle. -/
def CoreSt.due (k : CoreSt) : List MemAsk := k.cm.asks.filter fun a => decide (a.at_ ≤ k.sq.clk)

/-- The accesses that ask in the present a-cycle are served or held, in order. -/
def CoreSt.arbitrate (k : CoreSt) : CoreSt × List MemAsk × List MemAsk :=
  let k := k.guardTakes
  let due := k.due
  if due.isEmpty then (k, [], [])
  else
    let start := { k with cm := { k.cm with inUse := k.cm.inUse.filter fun e => decide (k.sq.clk ≤ e.1) } }
    let r := (portOrder due).foldl PortRound.serve { k := start }
    let asks := r.k.cm.asks
    let late (a : MemAsk) : Bool := a.moves asks r.held
    let k := { r.k with cm := { r.k.cm with
      asks := asks.map fun a => if late a then { a with at_ := a.at_ + 1, stamps := a.stamps.map Stamp.later } else a } }
    ((asks.filter late).foldl (fun k a => a.stamps.foldl CoreSt.stampLater k) k, r.served, r.held)

/-- An instruction's accesses are to be served. -/
def CoreSt.post (k : CoreSt) (asks : List MemAsk) : CoreSt :=
  if asks.isEmpty then k
  else { k with cm := { k.cm with
    asks := k.cm.asks ++ asks.map fun a => { a with id := k.cm.nextAsk }, nextAsk := k.cm.nextAsk + 1 } }

/-- Further accesses of an instruction whose accesses have the number `id`. -/
def CoreSt.postAs (k : CoreSt) (id : Nat) (asks : List MemAsk) : CoreSt :=
  { k with cm := { k.cm with asks := k.cm.asks ++ asks.map fun a => { a with id } } }

/-- Nothing of a core is timed for a later a-cycle but what `bulk` moves. -/
def CoreSt.still (k : CoreSt) : Bool :=
  k.cm.asks.isEmpty && k.ve.flights.isEmpty && !k.me.swapDue && k.me.stream.isNone && k.me.list.isNone && k.cm.guardAt.isNone
    && k.cq.queues.toList.all (·.input.isEmpty)

/-! ### Faults of a core -/

/-- The core leaves RUN for FAULT (R143 to R146). SQ_FAULT takes the first fault since core reset, with the a-cycle of the fault, which
SQ_CYCLE counts (R148). -/
def Sq.raise (q : Sq) (code slot bundle : Nat) : Sq :=
  { q with
    fault := if q.fault = 0 then fw 63 48 code ||| fw 47 45 slot ||| fw 44 13 q.cycle.toNat ||| fw 12 0 bundle
             else q.fault
    cycle := if q.st = .run then q.cycle + 1 else q.cycle
    st := match q.st with
      | .idle | .ready | .resetting => q.st
      | _ => .fault
    holds := 0, release := none, waitDma := none, bundle := [], waiting := false }

/-- The core faults, and its core-fault event goes to the continuity unit (R146). -/
def State.raise (s : State) (c : CoreId) (code slot bundle : Nat) : State :=
  let was := (s.core c).sq.st
  let s := s.modSq c fun q => q.raise code slot bundle
  if was ≠ .fault ∧ (s.core c).sq.st = .fault then { s with coreFaults := s.coreFaults ++ [c] } else s

/-! ### Fail-stop (R374 to R378) -/

/-- A fail-stop message to a watched peer (R384, type 2): the four record words. -/
def failMessage (s : State) (w : Watch) : Pkt :=
  { kind := .heartbeat, vc := 7, fabric := true, dstSvc := w.svc, dstUnit := 3, srcUnit := 3, ssad := true, dsad := true
    arg := fw 63 60 2 ||| fw 59 44 s.cu.beatSeq.toNat ||| fw 43 28 s.svc.toNat ||| fw 27 12 s.chip.toNat
    body := (s.cu.failRec.toList.map wordBytes).flatten }

/-- The FAIL LINK flit (R378). -/
def failFlit (s : State) : Nat :=
  s.chip.toNat * 2 ^ 232 + s.svc.toNat * 2 ^ 216 + s.pinc.toNat * 2 ^ 200
    + fld (s.cu.failRec[0]) 63 48 * 2 ^ 184 + (s.cu.failRec[1]).toNat * 2 ^ 120

/-- A core in a fail-stop is in FAULT and abandons what it presents (R375). -/
def CoreSt.stopAll (k : CoreSt) : CoreSt :=
  { k with sq := { k.sq with st := .fault, holds := 0, release := none, waitDma := none, bundle := [], waiting := false } }

/-- The package fail-stops (R375): the record is written unless one is held, every core stops in FAULT, FAIL LINK
flits, FAIL messages and the KDMP fail report leave, FAIL_N is asserted. -/
def failStop (t : Trigger) (s : State) : State :=
  let cu := s.cu
  let held := bit (cu.failRec[0]) 0
  let cycle := if t.saddle then 0 else (s.core t.unit).sq.cycle.toNat % 2 ^ 32
  let rec4 : Vector Word 4 :=
    if held then cu.failRec.set 3 (satAdd (cu.failRec[3]) 31 16 1)
    else #v[fw 63 48 t.code.toNat ||| fw 47 40 t.unit.toNat ||| fw 39 32 t.place.toNat
              ||| fw 31 31 (if t.saddle then 1 else 0) ||| 1,
            s.ck.ns, t.detail, fw 63 32 cycle ||| fw 15 0 s.pinc.toNat]
  if cu.failstop then { s with cu := { cu with failRec := rec4 } }
  else
    let s : State := { s with cu := { cu with failRec := rec4, failstop := true, failN := true }, cores := s.cores.map CoreSt.stopAll }
    let s := ((List.range 8).filter fun p => (vget s.fi.ports p).st == .up).foldl
      (fun s p => s.emit (.link p 4 (failFlit s))) s
    let s := (s.cu.watch.toList.filter (fun w => w.valid)).foldl (fun s w => s.inject (failMessage s w)) s
    s.report 0x41 ((s.cu.failRec.toList.map wordBytes).flatten)

/-- A trigger of a unit with a fault code. -/
def State.failCode (s : State) (code : Nat) (unit : BitVec 8) (saddle : Bool) (place : Nat := 0) (detail : Word := 0) :
    State :=
  failStop { code := BitVec.ofNat 16 code, unit, place := BitVec.ofNat 8 place, saddle, detail } s

/-- Nothing but management happens after a fail-stop (R375, R376). -/
def live (s : State) (k : Res) : Res := if s.cu.failstop then .next s else k

/-- A management write and its completion (R14); in a fail-stop it is refused (R376). -/
def State.mgmtOp (s : State) (addr : Nat) (f : State → Status × State) : State :=
  if s.cu.failstop then s.emit (.mgmt addr true (.refused .failed) 0)
  else
    let (st, s) := f s
    s.emit (.mgmt addr true st 0)

/-- A fault of the management or continuity unit is reported to the host (KDMP FAULT_REPORT). -/
def State.faultReport (s : State) (code : Nat) (word : Word) : State :=
  s.report 0x40 (leBytes 2 code ++ wordBytes word)

/-! ### Code errors (R169, R199, R373) -/

/-- Where a corrected or uncorrectable error of a core structure is reported: CM_ECC_FIRST's STRUCT, BANK and ROW. -/
def eccPlace (st : ErrStore) (a : Nat) : Nat × Nat × Nat :=
  match st with
  | .cm => (0, 4 * (a / 2 ^ 20) + a / 2 ^ 8 % 4, a / 2 ^ 10 % 1024)
  | .abuf => (1, 0, a / 256)
  | .ascale => (1, 0, a / 16)
  | .vob => (2, 0, a / 256)
  | _ => (3, a / 2 ^ 16, a / 2 ^ 10 % 64)

/-- The layout of CM_ECC_FIRST for an error of a core structure. -/
def cmEccWord (e : CodeErr) (cycle : Nat) : Word :=
  let (st, bank, row) := eccPlace e.store e.addr
  fw 63 63 1 ||| fw 62 61 st ||| fw 60 59 (min e.nbits 3) ||| fw 58 54 bank ||| fw 53 41 row
    ||| fw 40 38 (e.addr / 32 % 8) ||| fw 31 0 cycle

/-- Bytes of one column-tier (R173). -/
def tierBytes : Nat := 0x3000000

/-- The layout of TM_ECC_FIRST for an error of tier memory or the page map. -/
def tmEccWord (e : CodeErr) : Word :=
  match e.store with
  | .pageMap => fw 63 63 1 ||| fw 62 62 1 ||| fw 61 60 (min e.nbits 3) ||| fw 17 0 (e.addr / 32)
  | _ =>
    let ct := e.addr / tierBytes
    fw 63 63 1 ||| fw 61 60 (min e.nbits 3) ||| fw 39 32 (ct / 8) ||| fw 31 29 (ct % 8)
      ||| fw 17 0 (e.addr % tierBytes / 32)

/-- A corrected error is counted where R373 says; CU_CE_CNT.TOTAL counts every one. -/
def countCe (s : State) (e : CodeErr) : State :=
  let s := { s with cu := { s.cu with ceCnt := satAdd s.cu.ceCnt 31 0 1 } }
  match e.store with
  | .imem => { s with cu := { s.cu with ceCnt := satAdd s.cu.ceCnt 63 48 1 } }
  | .tier =>
    let col := e.addr / tierBytes / 8
    { s with tm := { s.tm with
        eccFirst := firstFault s.tm.eccFirst (tmEccWord e)
        cols := vmod s.tm.cols col fun k => { k with stat := satAdd k.stat 15 0 1 } } }
  | .row => { s with pn := { s.pn with eccCnt := satAdd s.pn.eccCnt 63 48 1 } }
  | .bridge => { s with pn := { s.pn with eccCnt := satAdd s.pn.eccCnt 47 32 1 } }
  | .pageMap =>
    { s with tm := { s.tm with
        eccFirst := firstFault s.tm.eccFirst (tmEccWord e)
        pmStat := satAdd s.tm.pmStat 15 0 1 } }
  | st =>
    let (hi, lo) := match st with
      | .cm => (63, 48)
      | .vob => (31, 16)
      | .acc => (15, 0)
      | _ => (47, 32)
    s.modCore e.core fun k => { k with cm := { k.cm with
      eccCnt := satAdd k.cm.eccCnt hi lo 1
      eccFirst := firstFault k.cm.eccFirst (cmEccWord e k.sq.cycle.toNat) } }

/-- An uncorrectable error or an address-fold mismatch fail-stops the package (R169, R172, R199, R374). -/
def uncorrectable (s : State) (e : CodeErr) : State :=
  match e.store with
  | .imem => s.failCode (if e.fold then 0x0B04 else 0x0B03) e.core false
  | .row => s.failCode (if e.fold then 0x0702 else 0x0701) e.core false e.core.toNat
  | .bridge => s.failCode (if e.fold then 0x0702 else 0x0701) e.core true e.core.toNat
  | .tier | .pageMap => s.failCode (if e.fold then 0x0509 else 0x0508) 0 true 0 (tmEccWord e)
  | _ => s.failCode (if e.fold then 0x0402 else 0x0401) e.core false 0
           (cmEccWord e (s.core e.core).sq.cycle.toNat)

/-- The errors in the granules that a read of bytes [lo, hi) of a structure checks. -/
def errsIn (s : State) (st : ErrStore) (c : CoreId) (lo hi : Nat) : List CodeErr :=
  s.errs.filter fun e => e.store == st && (e.core == c || st == .tier || st == .pageMap)
    && decide (lo / 32 * 32 ≤ e.addr) && decide (e.addr < hi)

/-- A read of bytes [lo, hi): with an uncorrectable error the package fail-stops and nothing is delivered, else every
corrected error is counted and the read goes on. -/
def checked (s : State) (st : ErrStore) (c : CoreId) (lo hi : Nat) (k : State → State) : State :=
  let es := errsIn s st c lo hi
  match es.find? (fun e => e.fold || decide (3 ≤ e.nbits)) with
  | some e => uncorrectable s e
  | none => k (es.foldl countCe s)

/-- A write of whole granules leaves no error in them. -/
def clearErrs (s : State) (st : ErrStore) (c : CoreId) (lo hi : Nat) : State :=
  { s with errs := s.errs.filter fun e => !(e.store == st && (e.core == c || st == .tier || st == .pageMap)
      && decide (lo ≤ e.addr) && decide (e.addr < hi)) }

/-! ### Arrivals (R274, R329 to R339) -/

/-- The errors that a packet's row meets at the bridges it crosses, and at its ejection (R274). -/
def rowErrs (s : State) (p : Pkt) : List CodeErr :=
  let far := match pktFrom p, (if p.dsad then NetEnd.saddle else .stop p.dstUnit.toNat) with
    | .stop a, .stop b => stopQuarter a != stopQuarter b
    | .saddle, .saddle => false
    | _, _ => true
  s.errs.filter fun e =>
    (e.store == .bridge && far && ((!p.ssad && e.core.toNat == stopQuarter p.srcUnit.toNat) || (!p.dsad && e.core.toNat == stopQuarter p.dstUnit.toNat)))
      || (e.store == .row && !p.dsad && e.core == p.dstUnit)

/-- A row is checked at each bridge and at its ejection; its errors go with it (R274). -/
def rowChecked (s : State) (p : Pkt) (k : State → State) : State :=
  let es := rowErrs s p
  if es.isEmpty then k s
  else
    let s := { s with errs := s.errs.filter fun e => !es.contains e }
    match es.find? (fun e => e.fold || decide (3 ≤ e.nbits)) with
    | some e => uncorrectable s e
    | none => k (es.foldl countCe s)

/-- A packet from the fabric passes the ingress checks, or is discarded with its count and its answer (R329, R330, R333,
R334). -/
def ingress (s : State) (p : Pkt) (k : State → State) : State :=
  let answer (s : State) (key : Option (BitVec 16)) : State :=
    if p.expectsResp then s.inject (p.reply 2 7 0) key else s
  if !(s.fi.pkey.toList.any fun w => bit w 63 && fld w 15 0 != 0 && fld w 15 0 == p.pkey.toNat) then
    answer (s.ingStat 63 48) (some p.pkey)
  else if p.kind = .reserved then s.ingStat 47 32
  else if p.dsad && decide (5 < p.dstUnit.toNat) then s.ingStat 47 32
  else if p.dstChip ≠ s.chip ∨ p.dstSvc ≠ s.svc then answer (s.ingStat 47 32) none
  else if p.dstPinc ≠ 0 ∧ p.dstPinc ≠ s.pinc then answer (s.ingStat 31 16) none
  else k (if p.kind = .resp then s.settle p else s)

/-- A packet leaves the ingress buffer of its port. -/
def State.takeIngress (s : State) (p : Pkt) : State :=
  s.modPort p.port.toNat fun x => ({ x with
    vcs := vmod x.vcs p.vc.toNat fun v => { v with depth := v.depth - p.flits } } : FiPort).flowControl s.fi.vcCfg

/-- The asynchronous row of a packet that the router delivers to a stop (R263, R266, R339): a ring row goes to the async port. -/
def State.delivered (s : State) (p : Pkt) : State :=
  if p.dsad then s
  else
    let gs := netRoute .saddle (.stop p.dstUnit.toNat) (if p.kind = .chRow then 2 else 0)
    { s with pn := s.pn.sendAsync { cls := .async, src := 256, req := fun _ => 8 } (s.core p.dstUnit).sq.clk gs true }

/-- A packet arrives: one that travels inside the package, or that the router turned round, must be the first of its flow
there; one from the fabric comes through a port that is UP (R321). A packet on a fabric passes the router. Else nothing
happens. In a step hold a packet waits where it is (R432). -/
def arrive (s : State) (p : Pkt) (k : State → State) : State :=
  if s.ck.hold.isSome then s
  else if s.net.find? p.sameFlow == some p then
    let s := { s with net := s.net.erase p }
    if p.fabric then ingress s p fun s => rowChecked (s.delivered p) p k else rowChecked s p k
  else if p.fabric && (vget s.fi.ports p.port.toNat).st == .up then
    ingress (s.takeIngress p) p fun s => rowChecked (s.delivered p) p k
  else s

/-! ### Checked accesses of core memory -/

/-- A core-memory access reads and checks the whole rows that it touches (R169). -/
def cmChecked (s : State) (c : CoreId) (a len : Nat) (k : State → State) : State :=
  checked s .cm c (a / 256 * 256) (ceilTo (a + len) 256) k

/-! ### Tier addresses (R173, R174) -/

/-- The flat byte index of a tier address: ((q × 64 + c) × 8 + tier) × 0x300_0000 + offset. -/
def taFlat (ta : Nat) : Nat := ta / 2 ^ 26 * tierBytes + ta % 2 ^ 26

/-- Column 0 to 255 of a tier address. -/
def taColumn (ta : Nat) : Nat := ta / 2 ^ 29 % 256

/-- Offset of a tier address within its column-tier. -/
def taOffset (ta : Nat) : Nat := ta % 2 ^ 26

def State.tierRead (s : State) (ta len : Nat) : List Byte := Mem.read s.tier (taFlat ta) len

/-- A weight window of a column (R313). -/
def State.window (s : State) (col w : Nat) : Word := vget s.tm.win (4 * col + w)

/-- The tier address that a scheduled read reaches under the latched selection (R294). -/
def State.remap (s : State) (ta : Nat) : Nat :=
  let col := taColumn ta
  let tier := ta / 2 ^ 26 % 8
  let page := ta % 2 ^ 26 / 49152
  let hit (w : Word) : Bool := bit w 63 && fld w 57 55 == tier && decide (fld w 54 45 ≤ page ∧ page < fld w 54 45 + fld w 44 34)
  match ((List.range 4).map fun i => s.window col i).find? hit with
  | some w =>
    if bit w 62 && bit s.ws.latchSel (fld w 61 58) then
      ta / 2 ^ 29 * 2 ^ 29 + fld w 33 31 * 2 ^ 26 + (fld w 30 21 + page - fld w 54 45) * 49152 + ta % 2 ^ 26 % 49152
    else ta
  | none => ta

/-- Bytes of tier memory that a scheduled read returns (R294). A block of 2,048 bytes lies in one page. -/
def State.tierFetch (s : State) (ta len : Nat) : List Byte := s.tierRead (s.remap ta) len

/-! ### Tests on a core's activity -/

/-- Whether a vector unit is occupied or a VOB access of an issued instruction is still to come (R94). -/
def Ve.active (v : Ve) (clk : Nat) : Bool :=
  v.unitFree.toList.any (fun t => decide (clk < t)) || (v.reads ++ v.writes).any (fun u => decide (clk ≤ u.at_))

/-- Whether a narrow access of the core keeps its bank (R154). -/
def CoreSt.narrowing (k : CoreSt) : Bool :=
  k.cm.inUse.any fun e => (e.2.code == 1 || e.2.code == 2) && e.2.write && decide (k.sq.clk ≤ e.1)

/-- Whether anything the core issued is still in flight (R144). -/
def CoreSt.busy (k : CoreSt) : Bool :=
  !k.cm.asks.isEmpty || k.narrowing || !k.ve.flights.isEmpty || decide (k.sq.clk < k.me.accUntil) ||
  k.ve.active k.sq.clk || k.sq.avail.any (fun e => decide (k.sq.clk < e.2)) || decide (k.sq.clk < k.me.mFree)
    || k.me.tdAt.toList.any (fun t => decide (k.sq.clk < t)) ||
  !k.me.pendWs.isEmpty || !k.me.pendCm.isEmpty || k.me.stream.isSome || k.me.list.isSome
    || k.me.tiles.toList.any (fun t => t.st == .check || t.st == .replay || t.st == .draining)
    || k.dma.queues.toList.any (fun q => !q.descs.isEmpty)
    || !k.sq.tgFly.isEmpty
    || k.cq.send.toList.any (fun e => e.st == .opening || !e.flights.isEmpty)
    || k.cq.handles.toList.any (fun h => h.joining || h.busy)

/-- SQ_STATUS.QUIET. -/
def CoreSt.quiet (k : CoreSt) : Bool := !k.busy

/-- Halted: STOPPED, DONE or FAULT, and QUIET (R144). -/
def CoreSt.halted (k : CoreSt) : Bool :=
  (k.sq.st == .stopped || k.sq.st == .done || k.sq.st == .fault) && k.quiet

def SqState.code : SqState → Nat
  | .idle => 0
  | .ready => 1
  | .run => 2
  | .stopped => 3
  | .done => 4
  | .fault => 5
  | .resetting => 6

end Sys2Proof.Machine
end

