-- ==== Sys2Proof/Machine/Operands.lean ====
section
/-! DEFINITION. Operand forms of the slot instructions: unified registers, address and scalar registers, VOB and
core-memory operands, slot faults and hold causes. -/

namespace Sys2Proof.Machine

/-! ### Unified registers (R123) -/

/-- Logical core number of a physical core (R18). -/
def logicalCore (p : Part) (c : CoreId) : Nat :=
  if p.is224 then c.toNat / 64 * 56 + c.toNat % 64 / 8 * 7 + c.toNat % 8 else c.toNat

/-- Whether a number names a register that can be read, or written (R123). -/
def regReadable (n : Nat) : Bool := n ≤ 72
def regWritable (n : Nat) : Bool := n ≤ 67

/-- The value of unified register n, zero-extended. -/
def readU (s : State) (c : CoreId) (n : Nat) : Word :=
  let q := (s.core c).sq
  if n < 32 then vget q.s n
  else if n < 48 then vget q.a (n - 32)
  else if n < 56 then (vget q.rm (n - 48)).setWidth 64
  else if n < 64 then vget q.cm (n - 56)
  else if n < 68 then (vget q.lp (n - 64)).setWidth 64
  else if n = 68 then q.cycle
  else if n = 69 then BitVec.ofNat 64 c.toNat
  else if n = 70 then BitVec.ofNat 64 (logicalCore s.part c)
  else if n = 72 then s.fprint
  else 0

/-- Unified register n written; a narrower register keeps the low bits. -/
def Sq.writeU (q : Sq) (n : Nat) (v : Word) : Sq :=
  if n < 32 then { q with s := vset q.s n v }
  else if n < 48 then { q with a := vset q.a (n - 32) v }
  else if n < 56 then { q with rm := vset q.rm (n - 48) (v.setWidth 8) }
  else if n < 64 then { q with cm := vset q.cm (n - 56) v }
  else if n < 68 then { q with lp := vset q.lp (n - 64) (v.setWidth 32) }
  else q

/-- Unified register n is available after `lat` a-cycles (R130, R137). -/
def Sq.await (q : Sq) (n lat : Nat) : Sq :=
  { q with avail := (BitVec.ofNat 7 n, q.clk + lat) :: q.avail.filter fun e => e.1.toNat ≠ n && q.clk < e.2 }

/-- Unified register n takes a word that was read for it, unless a later instruction has written it since. -/
def Sq.takeLate (q : Sq) (n t : Nat) (v : Word) : Sq := if (BitVec.ofNat 7 n, t) ∈ q.avail then q.writeU n v else q

/-- Unified register n written by an instruction whose result is available after `lat` a-cycles (R130, R137). -/
def State.writeReg (s : State) (c : CoreId) (n : Nat) (v : Word) (lat : Nat) : State :=
  s.modSq c fun q => (q.writeU n v).await n lat

/-- Address register a[i] and scalar register s[i] of a core. -/
def areg (k : CoreSt) (i : Nat) : Nat := (vget k.sq.a i).toNat
def sreg (k : CoreSt) (i : Nat) : Word := vget k.sq.s i

/-- Core-memory byte address a[i][22:0]. -/
def areg23 (k : CoreSt) (i : Nat) : Nat := areg k i % 2 ^ 23

/-- Bytes of core memory (R152). -/
def cmBytes : Nat := 2 ^ 23

/-- Whether any byte of [a, a + len) lies in an async bank (R152, R160): bank group a[22:20]. -/
def touchesAsync (k : CoreSt) (a len : Nat) : Bool :=
  (List.range 8).any fun g =>
    bit k.cm.asyncMask (4 * g) && decide (a < (g + 1) * 2 ^ 20) && decide (g * 2 ^ 20 < a + len)

/-- Whether all of [a, a + len) lies in async banks. -/
def insideAsync (k : CoreSt) (a len : Nat) : Bool :=
  !(List.range 8).any fun g =>
    !bit k.cm.asyncMask (4 * g) && decide (a < (g + 1) * 2 ^ 20) && decide (g * 2 ^ 20 < a + len)

/-- The pieces of [a, a + len) within rows of 256 bytes. `n` bounds the rows. -/
def rowPieces : Nat → Nat → Nat → List (Nat × Nat)
  | 0, _, _ => []
  | n + 1, a, len =>
    if len = 0 then []
    else
      let k := min len (256 - a % 256)
      (a, k) :: rowPieces n (a + k) (len - k)

/-! ### Faults at issue and holds -/

/-- A fault of a slot at issue: its code and what its unit's own fault register takes (R126). -/
inductive SlotFault where
  | sq (code : Nat)
  | me (code : Nat) (tile : Nat)
  | ve (code : Nat)
  | tm (code : Nat) (queue : Nat)
  | cq (code : Nat) (idx : Nat)
deriving DecidableEq, Repr

def SlotFault.code : SlotFault → Nat
  | .sq c => c
  | .me c _ => c
  | .ve c => c
  | .tm c _ => c
  | .cq c _ => c

/-- ME_FAULT, VE_FAULT, TM_DMA_FAULT and CQ_FAULT words (R88, R118, R201, R252). -/
def meFaultWord (code tile entry bundle : Nat) : Word :=
  fw 63 48 code ||| fw 47 44 tile ||| fw 43 32 entry ||| fw 12 0 bundle
def veFaultWord (code opcode bundle : Nat) : Word := fw 63 48 code ||| fw 47 40 opcode ||| fw 12 0 bundle
def tmFaultWord (code queue item bundle : Nat) : Word :=
  fw 63 48 code ||| fw 47 46 queue ||| fw 45 34 item ||| fw 12 0 bundle
def cqFaultWord (code reason idx tg bundle : Nat) : Word :=
  fw 63 48 code ||| fw 47 44 reason ||| fw 43 39 idx ||| fw 38 31 tg ||| fw 12 0 bundle

/-- The unit's own fault register takes its fault. -/
def State.unitFault (s : State) (c : CoreId) (opcode : Nat) (bundle : Nat) : SlotFault → State
  | .sq _ => s
  | .me code tile => s.modMe c fun m => { m with fault := firstFault m.fault (meFaultWord code tile 0 bundle) }
  | .ve code => s.modVe c fun v => { v with fault := firstFault v.fault (veFaultWord code opcode bundle) }
  | .tm code q => s.modDma c fun d => { d with fault := firstFault d.fault (tmFaultWord code q 0 bundle) }
  | .cq code idx => s.modCq c fun x => { x with fault := firstFault x.fault (cqFaultWord code 0 idx 0 bundle) }

/-- Why a bundle is held (R137). -/
inductive Cause where
  | scalar | rein | queue | imem | stirrup | tile | td | meIssue | operand | unit | drain | veScalar
  | credit | flow | contrib | release
deriving DecidableEq, Repr

/-- SQ_DEV_FIRST.SOURCE of a cause (R149); 0 for one that is no deviation (R136, R139, R233). -/
def Cause.source : Cause → Nat
  | .scalar => 0x01
  | .rein => 0x02
  | .queue => 0x03
  | .imem => 0x04
  | .stirrup | .tile | .td | .meIssue => 0x10
  | .operand | .unit | .drain | .veScalar => 0x11
  | .credit | .contrib => 0x13
  | .flow | .release => 0

/-- The bit of SQ_STATUS[15:8] that shows a cause, counted from H_RELEASE = 0. -/
def Cause.hbit : Cause → Nat
  | .scalar | .veScalar => 7
  | .stirrup | .tile | .td | .meIssue => 6
  | .operand | .unit | .drain => 5
  | .rein => 4
  | .queue => 3
  | .credit | .flow | .contrib => 2
  | .imem => 1
  | .release => 0

/-- One held a-cycle in the counter of a cause (R88, R118, R136, R149, R252). -/
def CoreSt.countHold (k : CoreSt) : Cause → CoreSt
  | .scalar => { k with sq := { k.sq with devCnt := satAdd k.sq.devCnt 63 48 1 } }
  | .rein => { k with sq := { k.sq with devCnt := satAdd k.sq.devCnt 47 32 1 } }
  | .queue => { k with sq := { k.sq with devCnt := satAdd k.sq.devCnt 31 16 1 } }
  | .imem => { k with sq := { k.sq with devCnt := satAdd k.sq.devCnt 15 0 1 } }
  | .stirrup => { k with me := { k.me with devCnt := satAdd k.me.devCnt 63 48 1 } }
  | .tile => { k with me := { k.me with devCnt := satAdd k.me.devCnt 47 32 1 } }
  | .td => { k with me := { k.me with devCnt := satAdd k.me.devCnt 31 16 1 } }
  | .meIssue => { k with me := { k.me with devCnt := satAdd k.me.devCnt 15 0 1 } }
  | .operand => { k with ve := { k.ve with devCnt := satAdd k.ve.devCnt 63 48 1 } }
  | .unit => { k with ve := { k.ve with devCnt := satAdd k.ve.devCnt 47 32 1 } }
  | .drain => { k with ve := { k.ve with devCnt := satAdd k.ve.devCnt 31 16 1 } }
  | .veScalar => { k with ve := { k.ve with devCnt := satAdd k.ve.devCnt 15 0 1 } }
  | .credit => { k with cq := { k.cq with devCnt := satAdd k.cq.devCnt 63 48 1 } }
  | .contrib => { k with cq := { k.cq with devCnt := satAdd k.cq.devCnt 47 32 1 } }
  | .flow => { k with cq := { k.cq with devCnt := satAdd k.cq.devCnt 31 16 1 } }
  | .release => { k with sq := { k.sq with releaseCyc := satWord k.sq.releaseCyc 1 } }

/-- The bundle is held for one a-cycle, which is still to pass: every cause present is counted, SQ_STATUS shows the causes, and one
deviation a-cycle is counted when some cause is a deviation (R124, R137, R139). -/
def CoreSt.hold (k : CoreSt) (causes : List Cause) : CoreSt :=
  let k := causes.foldl CoreSt.countHold k
  let bits := causes.foldl (fun b x => b ||| 1#8 <<< x.hbit) 0#8
  let srcs := (causes.map Cause.source).filter (· ≠ 0)
  let sq := { k.sq with holds := bits }
  match srcs.min? with
  | none => { k with sq }
  | some src => { k with sq := sq.deviate src 1 }

/-! ### VOB operands (R91, R93, R96) -/

/-- Bytes of the VOB. -/
def vobBytes : Nat := 65536

/-- A VOB byte address: 11-bit field in units of 32 bytes, plus a[AREG][15:5] when the offset bit is set. -/
def vobAddr (k : CoreSt) (field : Nat) (off : Bool) (ar : Nat) : Nat :=
  32 * (field + if off then areg k ar / 32 % 2 ^ 11 else 0)

/-- Whether a region of the VOB ends beyond byte 65,535 (R93). -/
def vobOut (a len : Nat) : Bool := decide (vobBytes < a + len)

end Sys2Proof.Machine
end

