-- ==== Sys2Proof/Machine/Column.lean ====
section
/-! DEFINITION. Tier writes with the mirror tap, the arbiters of the package network, the column ports and their
asynchronous requests, and the package network's own events (R174 to R180, R200, R203, R264 to R275, R386). -/

namespace Sys2Proof.Machine

/-! ### The mirror tap (R386, R393) -/

/-- Rows that the tap buffer of 16 MiB holds. -/
def tapRows : Nat := 65536

/-- One row taken by the tap; with the buffer full the CU raises CU_MIRROR_OVERRUN and copies both windows again. -/
def tapRow (s : State) (part : BitVec 3) (ta : Nat) (data : List Byte) (ackreq : Bool) : State :=
  if tapRows ≤ s.cu.tap.length + s.cu.sent.length then
    let w := satAdd s.cu.mirrorStat 31 16 1 ||| fw 15 15 1
    ({ s with cu := { s.cu with mirrorStat := w } } : State).faultReport 0x0B07 w
  else
    { s with cu := { s.cu with
      tapped := s.cu.tapped + 1
      tap := s.cu.tap ++ [{ seq := s.cu.tapped + 1, part, ta, data, ackreq }] } }

/-- Flat page of a tier address (R386). -/
def flatPage (ta : Nat) : Nat := ta / 2 ^ 26 * 1024 + ta % 2 ^ 26 / 49152

/-- The rows that the tap copies after a write of the 1,024-byte unit at a tier address has landed (R386). A waymark row of
the staging window asks for an acknowledgement (R391). -/
def tapUnit (s : State) (ta : Nat) : State :=
  if !bit s.cu.mirrorCfg 63 then s
  else
    let stage := s.cu.mirrorStage.toNat
    let page := flatPage ta
    let rows := (List.range 4).map fun i => ta + 256 * i
    let s :=
      if fld s.cu.mirrorCfg 21 0 ≤ page ∧ page < fld s.cu.mirrorCfg 43 22 then
        rows.foldl (fun s a => tapRow s 0 a (s.tierRead a 256) false) s
      else s
    if stage ≤ ta ∧ ta < stage + 0x80000 then
      rows.foldl (fun s a =>
        let off := a - stage
        tapRow s 1 (s.cu.mirrorArea.toNat + off) (s.tierRead a 256) (decide (0x1000 ≤ off ∧ off < 0x41000))) s
    else s

/-- Bytes written to tier memory at a tier address; every unit touched goes to the tap. -/
def State.tierWrite (s : State) (ta : Nat) (bs : List Byte) : State :=
  if bs.isEmpty then s
  else
    let a := taFlat ta
    let s := clearErrs { s with tier := Mem.write s.tier a bs } .tier 0 a (a + bs.length)
    let first := ta / 1024
    (List.range ((ta + bs.length - 1) / 1024 + 1 - first)).foldl (fun s i => tapUnit s ((first + i) * 1024)) s

/-! ### Column ports (R176 to R180) -/

def sideKind : Side → Nat
  | .read => 1
  | .write => 2

/-- The port that a scheduled access of the core above asks for. -/
def sidePort : Side → MemPort
  | .read => .tierRead
  | .write => .tierWrite

def Column.side (c : Column) : Side → PortSide
  | .read => c.read
  | .write => c.write

def Column.setSide (c : Column) (sd : Side) (p : PortSide) : Column :=
  match sd with
  | .read => { c with read := p }
  | .write => { c with write := p }

def State.port (s : State) (col : Nat) (sd : Side) : PortSide := (vget s.tm.cols col).side sd

def State.setPort (s : State) (col : Nat) (sd : Side) (p : PortSide) : State :=
  { s with tm := { s.tm with cols := vmod s.tm.cols col fun c => c.setSide sd p } }

def State.colStat (s : State) (col hi lo n : Nat) : State :=
  { s with tm := { s.tm with cols := vmod s.tm.cols col fun c => { c with stat := satAdd c.stat hi lo n } } }

/-- The a-cycle count of the core above a column, by which the column's port runs. -/
def State.colClk (s : State) (col : Nat) : Nat := (s.core (BitVec.ofNat 8 col)).sq.clk

/-- Asynchronous requests that a side queues; the network holds the further ones, which stand behind them in the list (R180). -/
def portDepth : Nat := 3

/-- The requests that ask in a-cycle `clk`. -/
def PortSide.asking (p : PortSide) (clk : Nat) : List PortEntry := (p.queue.take portDepth).filter fun e => decide (e.from_ ≤ clk)

def PortSide.owned (p : PortSide) : Bool := p.queue.any (·.owner)

/-- The grant in progress makes a beat in a-cycle `clk`: the first follows the decision (R267). -/
def PortSide.beating (p : PortSide) (clk : Nat) : Bool := p.owned && decide (p.grantAt < clk)

/-- The arbiter of a side decides: the highest-ranked asking request owns the side from the next a-cycle on (R267, R272). -/
def portDecide (s : State) (col : Nat) (sd : Side) : State :=
  let p := s.port col sd
  let clk := s.colClk col
  let kind := sideKind sd
  let best := (p.asking clk).foldl (fun (b : Option PortEntry) e => match b with
    | none => some e
    | some x => if arbBefore s.pn kind col e.req.requester.toNat x.req.requester.toNat then some e else b) none
  match best with
  | none => s
  | some e =>
    let s := { s with pn := grantArb s.pn kind col e.req.requester.toNat }
    s.setPort col sd { p with
      queue := p.queue.modify (p.queue.idxOf e) fun x => { x with owner := true }
      guarded := false, grantAt := clk, limit := fld s.pn.arbBurst 24 16 }

/-- The beats of a request that are made before a-cycle `clk`, the grant in progress with them. -/
def PortSide.made (p : PortSide) (e : PortEntry) (clk : Nat) : Nat := e.kept + (if e.owner then clk - p.grantAt else 0)

/-- The units of a write that have been made are in tier memory, whatever becomes of the transfer (R270). -/
def landUnits (s : State) (sd : Side) (e : PortEntry) (n : Nat) : State :=
  match sd with
  | .read => s
  | .write => s.tierWrite e.req.ta.toNat (e.req.data.take (1024 * n - e.req.ta.toNat % 1024))

/-- A scheduled request asks for a side of a port: an asynchronous grant in progress is preempted at once and restarts, unless its
guard made it (R179, R180, R269); the preempted owner asks again from the next a-cycle. A weight-chunk write counts the restart
(R302). -/
def portScheduled (s : State) (col : Nat) (sd : Side) : State :=
  let p := s.port col sd
  let clk := s.colClk col
  match p.queue.find? (·.owner) with
  | none => s
  | some e =>
    if p.guarded || !p.beating clk then s
    else
      let r := e.req.requester
      let s := s.colStat col 47 32 1
      let s := if r = 11 then { s with ws := { s.ws with stat := satAdd s.ws.stat 31 16 1 } } else s
      let s := { s with pn := countArb s.pn (sideKind sd) col r.toNat fun c => { c with preempted := sat32 (c.preempted + 1) } }
      let s := landUnits s sd e (p.made e clk - 1)
      portDecide (s.setPort col sd { p with
        queue := p.queue.map fun x =>
          if x.owner then { x with owner := false, preempted := x.preempted + 1, from_ := clk + 1, kept := 0 } else x }) col sd

/-- An asynchronous request joins a side; an idle arbiter decides in the a-cycle in which it arrives (R179, R180, R267). -/
def portJoin (s : State) (col : Nat) (sd : Side) (r : PortReq) (job : PortJob) : State :=
  let p := s.port col sd
  let clk := s.colClk col
  let s := s.setPort col sd { p with
    queue := p.queue ++ [{ req := r, job, from_ := clk }], headAt := if p.queue.isEmpty then clk else p.headAt }
  if p.owned then s else portDecide s col sd

/-- The asynchronous requester numbers of a side (R266). -/
def sideRequester : Side → Nat → Bool
  | .read, r => decide (8 ≤ r ∧ r ≤ 11)
  | .write, r => decide (8 ≤ r ∧ r ≤ 12)

/-- Units that bytes of a tier address touch. -/
def unitsOf (ta len : Nat) : Nat := (ta % 1024 + len + 1023) / 1024

/-- Whether a request names whole blocks, or whole granules in its units, of one column-tier of the column (R173, R176). -/
def portReqFits (r : PortReq) (col : Nat) (sd : Side) : Bool :=
  let ta := r.ta.toNat
  sideRequester sd r.requester.toNat && taColumn ta == col && match sd with
    | .read => ta % 2048 == 0 && decide (1 ≤ r.beats ∧ taOffset ta + 2048 * r.beats ≤ tierBytes)
    | .write => ta % 32 == 0 && r.data.length % 32 == 0 && !r.data.isEmpty && r.beats == unitsOf ta r.data.length
        && decide (taOffset ta + r.data.length ≤ tierBytes)

/-- COLUMN_PORT_ASYNC_REQUEST (R179, R180, R267): the request of an agent outside joins the side's queue. A request that names no byte, or
part of a granule, is none (R173, R176). -/
def columnPortAsyncRequest (col : BitVec 8) (sd : Side) (r : PortReq) (s : State) : State :=
  if portReqFits r col.toNat sd then portJoin s col.toNat sd r .outside else s

def execColumnPortAsyncRequest (col : BitVec 8) (sd : Side) (r : PortReq) (s : State) : Res :=
  live s (.next (columnPortAsyncRequest col sd r s))

/-- The a-cycles that the head of a side counts before its guard fires (R180). -/
def portGuardAt : Nat := 1024

/-- COLUMN_PORT_GUARD (R180): the head's count has reached 1,024, and it takes the side from the next a-cycle on; every scheduled request
for the side is held while the guarded grant runs. Another owner keeps the beats it has made and asks again (DESIGN CHOICE, log
entry 112). -/
def columnPortGuard (col : BitVec 8) (sd : Side) (s : State) : State :=
  let col := col.toNat
  let p := s.port col sd
  let clk := s.colClk col
  match p.queue with
  | [] => s
  | e :: rest =>
    if p.guarded || decide (clk < p.headAt + portGuardAt) then s
    else
      let s := if e.owner then s else { s with pn := grantArb s.pn (sideKind sd) col e.req.requester.toNat }
      let pause (x : PortEntry) : PortEntry := { x with kept := p.made x clk, owner := false }
      s.setPort col sd { p with
        queue := { pause e with owner := true } :: rest.map pause
        guarded := true, grantAt := clk, limit := fld s.pn.arbBurst 24 16 }

/-- BURST_LIMIT_EXPIRY (R180, R268): a grant has run for its limit; the owner keeps its beats and joins the decision at the lowest rank,
and the head's count returns to 0 when the grant was the head's. -/
def burstLimitExpiry (col : BitVec 8) (sd : Side) (s : State) : State :=
  let col := col.toNat
  let p := s.port col sd
  let clk := s.colClk col
  match p.queue.find? (·.owner) with
  | none => s
  | some e =>
    if clk < p.grantAt + p.limit ∨ e.req.beats ≤ p.made e clk then s
    else
      let own := match p.queue with
        | x :: _ => x.owner
        | [] => false
      portDecide (s.setPort col sd { p with
        queue := p.queue.map fun x => if x.owner then { x with owner := false, kept := p.made x clk } else x
        guarded := false, headAt := if own then clk else p.headAt }) col sd

def execBurstLimitExpiry (col : BitVec 8) (sd : Side) (s : State) : Res :=
  live s (.next (burstLimitExpiry col sd s))

/-- OK, or RESTARTED with the preemptions of a transfer (R179, R269). -/
def transferStatus (n : Nat) : Status := if n = 0 then .ok else .restarted n

/-- The tier address of a flat tier byte index (R174). -/
def flatTa (f : Nat) : Nat := f / tierBytes * 2 ^ 26 + f % tierBytes

/-- The management address of a tier byte (R174). -/
def slowAddr (ta : Nat) : Nat := 0x8000000000 + taFlat ta

/-- A read of blocks at a port checks every granule of them (R199); requester 8 reads through the weight windows (R294). -/
def blocksChecked (s : State) (r : PortReq) (k : List Byte → State → State) : State :=
  let ta := if r.requester = 8 then s.remap r.ta.toNat else r.ta.toNat
  checked s .tier 0 (taFlat ta) (taFlat ta + 2048 * r.beats) fun s => k (s.tierRead ta (2048 * r.beats)) s

/-- A mirror row has been written: its RESP leaves when every earlier row of its source has been (R387). -/
def State.mirrorLanded (s : State) (p : Pkt) : State :=
  let rows := s.cu.mirrorIn.modify (s.cu.mirrorIn.idxOf (p, false)) fun x => (x.1, true)
  let same (x : Pkt × Bool) : Bool := x.1.srcChip == p.srcChip
  let done := (rows.filter same).takeWhile (·.2)
  let s := { s with cu := { s.cu with mirrorIn := done.foldl List.erase rows } }
  done.foldl (fun s x => if x.1.expectsResp then s.send (x.1.reply 0 0 0) else s) s

/-- The completion of an asynchronous transfer, in the a-cycle of its last beat (R174, R179, R200, R270); the rows that it read leave for the
saddle die (R266). -/
def portFinish (s : State) (col : Nat) (sd : Side) (e : PortEntry) : State :=
  let st := transferStatus e.preempted
  let ta := e.req.ta.toNat
  match e.job with
  | .outside => match sd with
    | .write => (s.tierWrite ta e.req.data).emit (.async e.req.requester.toNat st [])
    | .read => blocksChecked s e.req fun data s => (s.rowsUp col 10 (data.length / 256)).emit (.async e.req.requester.toNat st data)
  | .slowRead a => blocksChecked s e.req fun _ s => (s.rowsUp col 10 1).emit (.mgmt (slowAddr a) false st (Mem.word s.tier (taFlat a)))
  | .slowWrite a v =>
    let g := taFlat a / 32 * 32
    checked s .tier 0 g (g + 32) fun s =>
      ((clearErrs s .tier 0 g (g + 32)).tierWrite a (wordBytes v)).emit (.mgmt (slowAddr a) true st 0)
  | .scrubRead =>
    let f := taFlat ta
    let found := !(errsIn s .tier 0 f (f + 2048)).isEmpty
    blocksChecked s e.req fun _ s =>
      if found then portJoin s col .write { requester := 12, ta := e.req.ta, beats := 2, data := [] } .scrubBack else s
  | .scrubBack => clearErrs s .tier 0 (taFlat ta) (taFlat ta + 2048)
  | .chunk =>
    let s := s.tierWrite ta e.req.data
    { s with ws := { s.ws with bytes := satWord s.ws.bytes e.req.data.length } }
  | .mirror p => (s.tierWrite ta e.req.data).mirrorLanded p

/-- ASYNC_TRANSFER_COMPLETE (R179, R270): the owner makes its last beat, unless a scheduled request of the core above asks for the side in
the a-cycle. It leaves the queue, and the next owner is decided (R267). -/
def asyncTransferComplete (col : BitVec 8) (sd : Side) (s : State) : State :=
  let col := col.toNat
  let p := s.port col sd
  let k := s.core (BitVec.ofNat 8 col)
  let clk := k.sq.clk
  match p.queue.find? (·.owner) with
  | none => s
  | some e =>
    if p.made e clk < e.req.beats ∨ (!p.guarded ∧ k.due.any (fun a => a.port == sidePort sd)) then s
    else
      let first := p.queue.idxOf e == 0
      let s := { s with pn := servedArb s.pn (sideKind sd) col e.req.requester.toNat }
      let s := s.setPort col sd { p with
        queue := p.queue.erase e, guarded := false, headAt := if first then clk else p.headAt }
      portDecide (portFinish s col sd e) col sd

def execAsyncTransferComplete (col : BitVec 8) (sd : Side) (s : State) : Res :=
  live s (.next (asyncTransferComplete col sd s))

/-- What an a-cycle does at a side of a port: a scheduled request that asks preempts (R179), every asynchronous one that asks and makes no
beat waits (R271), and an idle side decides (R267). -/
def portSideTick (s : State) (col : Nat) (sd : Side) : State :=
  if (s.port col sd).queue.isEmpty then s
  else
    let k := s.core (BitVec.ofNat 8 col)
    let clk := k.sq.clk
    let kind := sideKind sd
    let s := if k.due.any (fun a => a.port == sidePort sd) then portScheduled s col sd else s
    let p := s.port col sd
    let s := (p.asking clk).foldl (fun s e =>
      let r := e.req.requester.toNat
      { s with pn := if e.owner && p.beating clk then servedArb s.pn kind col r else waitArb s.pn kind col r }) s
    if p.owned then s else portDecide s col sd

def portTick (s : State) (col : Nat) : State := portSideTick (portSideTick s col .read) col .write

/-- TIER_SLOW_PATH_ACCESS (R174, R199): an asynchronous request of the management slow path at the column port: a block read, or a
read-modify-write of a granule. -/
def tierSlowPathAccess (a : BitVec 40) (write : Bool) (v : Word) (s : State) : State :=
  let n := a.toNat
  let answer (s : State) (st : Status) (w : Word) : State := s.emit (.mgmt n write st w)
  if n % 8 ≠ 0 then answer s (.refused .align) 0
  else if n < 0x8000000000 ∨ 0x8000000000 + 2048 * tierBytes ≤ n then answer s (.refused .unmapped) 0
  else
    let f := n - 0x8000000000
    let ta := flatTa f
    if s.cu.failstop then
      -- R376: reads still answer, except a granule that fails its code; writes are refused
      if write then answer s (.refused .failed) 0
      else if (errsIn s .tier 0 f (f + 8)).any (fun e => e.fold || decide (3 ≤ e.nbits)) then answer s (.refused .ecc) 0
      else answer s .ok (Mem.word s.tier f)
    else if write then
      portJoin s (taColumn ta) .write { requester := 10, ta := BitVec.ofNat 37 (ta / 1024 * 1024), beats := 1, data := [] } (.slowWrite ta v)
    else
      portJoin s (taColumn ta) .read { requester := 10, ta := BitVec.ofNat 37 (ta / 2048 * 2048), beats := 1, data := [] } (.slowRead ta)

/-- An access of the slow path that finds its port idle, made at once. -/
def slowNow (a : BitVec 40) (write : Bool) (v : Word) (s : State) : State :=
  let ta := flatTa (a.toNat - 0x8000000000)
  let req (unit : Nat) : PortReq := { requester := 10, ta := BitVec.ofNat 37 (ta / unit * unit), beats := 1, data := [] }
  if write then portFinish s (taColumn ta) .write { req := req 1024, job := .slowWrite ta v }
  else portFinish s (taColumn ta) .read { req := req 2048, job := .slowRead ta }

def execTierSlowPathAccess (a : BitVec 40) (write : Bool) (v : Word) (s : State) : Res :=
  .next (tierSlowPathAccess a write v s)

/-- PATROL_SCRUB_TICK (R200): the port asks for the block that the pass has reached; a block that held a corrected granule is written back
when it has been read. The pass advances with the last column. It pauses in REST and in a step hold (R432, R442). -/
def patrolScrubTick (col : BitVec 8) (s : State) : State :=
  if !bit s.tm.scrubCfg 16 || s.ck.rest || s.ck.hold.isSome then s
  else
    let block := fld s.tm.scrubStat 17 0
    let ta := flatTa ((col.toNat * 8 + block / 24576) * tierBytes + block % 24576 * 2048)
    let s := portJoin s col.toNat .read { requester := 9, ta := BitVec.ofNat 37 ta, beats := 1, data := [] } .scrubRead
    if col.toNat = 255 then
      if block = 196607 then { s with tm := { s.tm with scrubStat := satAdd (clrFld s.tm.scrubStat 17 0) 63 32 1 } }
      else { s with tm := { s.tm with scrubStat := setFld s.tm.scrubStat 17 0 (block + 1) } }
    else s

def execPatrolScrubTick (col : BitVec 8) (s : State) : Res := live s (.next (patrolScrubTick col s))

/-- A word written into the page-map window (R203); the tap then copies the window row that holds it (R386). -/
def pageMapWrite (w : BitVec 20) (v : Word) (s : State) : State :=
  let a := 8 * w.toNat
  let s := clearErrs { s with pageMap := Mem.setWord s.pageMap a v } .pageMap 0 (a / 32 * 32) (a / 32 * 32 + 32)
  if bit s.cu.mirrorCfg 63 then
    let row := a / 256 * 256
    tapRow s 2 (s.cu.mirrorArea.toNat + 0x800000 + row) (Mem.read s.pageMap row 256) false
  else s

def execPageMapWrite (w : BitVec 20) (v : Word) (s : State) : Res :=
  .next (s.mgmtOp (0x0500000000 + 8 * w.toNat) fun s => (.ok, pageMapWrite w v s))

/-! ### Package-network events (R264, R265, R274, R275) -/

/-- The core whose a-cycles count at a place of the network: that at the stop, or the first of a bridge's quarter. -/
def placeCore (w : NetPlace) : CoreId :=
  let x := placeSlot w
  BitVec.ofNat 8 (if x.rows = 16 then 64 * x.stop else x.stop)

def placeClk (s : State) (w : NetPlace) : Nat := (s.core (placeCore w)).sq.clk

/-- ASYNC_ROW_GUARD (R265): the guard that fired takes one slot in the next a-cycle; a scheduled row that has it then is held, and moves one
a-cycle later, before asynchronous rows. -/
def asyncRowGuard (w : NetPlace) (s : State) : State :=
  let x := placeSlot w
  let t := placeClk s w + 1
  let us := s.pn.usesAt true x t
  let g : NetUse := { slot := x, at_ := t, cls := .guard, owner := { owner := 0, saddle := false, dma := false } }
  match us.find? (fun u => u.cls == .sched && decide (x.rows ≤ us.length)) with
  | none => { s with pn := { s.pn with uses := s.pn.uses ++ [g] } }
  | some u =>
    let moved := { u with at_ := t + 1 }
    let pn : Pn := { s.pn with uses := s.pn.uses.erase u ++ [g, moved] }
    heldRow u.owner { s with pn := (pn.losers [moved]).foldl Pn.putOff pn } (x, t, true)

/-- ROW_STALL (R274): PN_STALL fail-stops the package. -/
def execRowStall (w : NetPlace) (s : State) : Res :=
  .next (s.failCode 0x0703 w.stop false w.stop.toNat)

/-- DEV_SUMMARY_REFRESH (R275): the summary and the maps take SQ_DEV_TOTAL of every enabled core, at the end of the a-cycle whose count is
1,023 modulo 1,024. While CLK_ARITH stands still no refresh falls due. -/
def devSummaryRefresh (s : State) : State :=
  if s.ck.rest || s.ck.hold.isSome then s else
  let idx := (List.range 256).filter fun i => !s.fusedOff (BitVec.ofNat 8 i)
  let tot (i : Nat) : Nat := (s.core (BitVec.ofNat 8 i)).sq.devTotal.toNat
  let dev := idx.filter fun i => tot i ≠ 0
  let sum := min ((idx.map tot).sum) (2 ^ 47 - 1)
  let map (m : Nat) : Word := BitVec.ofNat 64 ((dev.filter fun i => i / 64 == m).map (fun i => 2 ^ (i % 64))).sum
  { s with pn := { s.pn with
    acyc := s.pn.acyc / 1024 * 1024 + 1024
    devSummary := fw 63 55 dev.length ||| fw 54 47 (dev.headD 0) ||| fw 46 0 sum
    devMap := #v[map 0, map 1, map 2, map 3] } }

def execDevSummaryRefresh (s : State) : Res := live s (.next (devSummaryRefresh s))

end Sys2Proof.Machine
end

