-- ==== Sys2Proof/Machine/Dma.lean ====
section
/-! DEFINITION. DMA descriptors, their beats and faults, and the page map (R181 to R198, R204). -/

namespace Sys2Proof.Machine

def spaceOf : Nat → Option Space
  | 0 => some .cm
  | 1 => some .tier
  | 2 => some .abuf
  | 3 => some .ascale
  | 4 => some .imem
  | _ => none

/-- The address of row 0 of a side (R184): a core-memory byte, a tier address, an A-buffer line, an A-scale entry or a
bundle. -/
def sideAddr (sp : Space) (a off : Nat) : Nat :=
  match sp with
  | .cm => a % 2 ^ 23 + off * 256
  | .tier => a % 2 ^ 37 + off * 256
  | .abuf => a % 512 + off
  | .ascale => a % 512 + 16 * off
  | .imem => a % 8192 + 4 * off

/-- Offset of a tier side within its column-tier: the register's offset field with the rows added (R184). -/
def tierSideOff (a off : Nat) : Nat := a % 2 ^ 26 + off * 256

/-- Whether a side is misaligned (R184). -/
def sideMisaligned (sp : Space) (a off : Nat) : Bool :=
  match sp with
  | .cm => sideAddr .cm a off % 256 != 0
  | .tier => tierSideOff a off % 256 != 0
  | .imem => a % 8192 % 4 != 0
  | _ => false

/-- Whether rows of a side leave its space (R184). -/
def sideOut (sp : Space) (a off rows : Nat) : Bool :=
  match sp with
  | .cm => decide (cmBytes < sideAddr .cm a off + 256 * rows)
  | .tier => decide (tierBytes < tierSideOff a off + 256 * rows)
  | .imem => decide (8192 < sideAddr .imem a off + 4 * rows)
  | _ => false

/-- DMA.COPY (R185). -/
def copyDecode (k : CoreSt) (b : BitVec 56) : Except Nat DmaOp :=
  let sa := areg k (fld b 47 44)
  let da := areg k (fld b 43 40)
  let rows := fld b 39 28 + 1
  let so := fld b 27 14
  let d := fld b 13 0
  match spaceOf (fld b 53 51), spaceOf (fld b 50 48) with
  | some ssp, some dsp =>
    if !(ssp == .cm || (ssp == .tier && dsp != .ascale)) then .error 0x0501
    else if sideMisaligned ssp sa so || sideMisaligned dsp da d then .error 0x0503
    else if sideOut ssp sa so rows || sideOut dsp da d rows then .error 0x0502
    else .ok (.copy ssp (sideAddr ssp sa so) dsp (sideAddr dsp da d) rows)
  | _, _ => .error 0x0501

/-- DMA.GATHER (R188, R189). -/
def gatherDecode (k : CoreSt) (b : BitVec 56) : Except Nat DmaOp :=
  let la := areg k (fld b 47 44)
  let da := areg k (fld b 43 40)
  let ra := vget k.sq.a (fld b 39 36)
  let n := fld b 35 24 + 1
  let rpe := fld b 23 20 + 1
  let d := fld b 19 6
  let base := fld ra 36 0
  let len := fld ra 63 40
  match spaceOf (fld b 53 51), spaceOf (fld b 50 48) with
  | some ssp, some dsp =>
    if !zeroFld b 5 0 then .error 0x0507
    else if !((ssp == .cm || ssp == .tier) && (dsp == .cm || dsp == .abuf)) then .error 0x0501
    else if la % 256 != 0 || base % 256 != 0 || sideMisaligned dsp da d then .error 0x0503
    else
      let regionOut := match ssp with
        | .cm => decide (cmBytes < base + 256 * len)
        | _ => decide (tierBytes < base % 2 ^ 26 + 256 * len)
      if regionOut || decide (cmBytes < la + 8 * n) || sideOut dsp da d (n * rpe) then .error 0x0502
      else .ok (.gather ssp la dsp (sideAddr dsp da d) base len n rpe)
  | _, _ => if !zeroFld b 5 0 then .error 0x0507 else .error 0x0501

/-- DMA.PAGED (R196, R197). -/
def pagedDecode (k : CoreSt) (b : BitVec 56) : Except Nat DmaOp :=
  let toTier := bit b 53
  let p := sreg k (fld b 45 41)
  let la := areg k (fld b 49 46)
  let g := fld b 40 29 + 1
  let lo := fld b 28 15
  let l := fld p 27 0
  if !zeroFld b 14 0 || !zeroFld p 63 37 then .error 0x0507
  else match spaceOf (fld b 52 50) with
    | some .cm =>
      let a := la % 2 ^ 23 + 32 * lo
      if l % 32 ≠ 0 ∨ a % 256 ≠ l % 256 then .error 0x0503
      else if 201326592 < l + 32 * g ∨ cmBytes < a + 32 * g then .error 0x0502
      else .ok (.paged toTier (fld p 36 28) l .cm a g)
    | some .abuf =>
      let a := (256 * (la % 512) + 32 * lo) % 131072
      if toTier then .error 0x0501
      else if l % 32 ≠ 0 ∨ a % 256 ≠ l % 256 then .error 0x0503
      else if 201326592 < l + 32 * g then .error 0x0502
      else .ok (.paged toTier (fld p 36 28) l .abuf a g)
    | _ => .error 0x0501

def dmaDecode (k : CoreSt) (op : Nat) (b : BitVec 56) : Except Nat DmaOp :=
  match op with
  | 0x33 => copyDecode k b
  | 0x34 => gatherDecode k b
  | 0x35 => pagedDecode k b
  | _ => .error 0x0507

def dmaFault (k : CoreSt) (op : Nat) (b : BitVec 56) : Option SlotFault :=
  match dmaDecode k op b with
  | .error code => some (.tm code (fld b 55 54))
  | .ok _ => none

/-- The queue that a D-slot word issues to, when it is a DMA instruction. -/
def dmaQueueOf (op : Nat) (b : BitVec 56) : Option Nat :=
  if 0x33 ≤ op ∧ op ≤ 0x35 then some (fld b 55 54) else none

def dmaReads (op : Nat) (b : BitVec 56) : List Nat :=
  match op with
  | 0x33 => [32 + fld b 47 44, 32 + fld b 43 40]
  | 0x34 => [32 + fld b 47 44, 32 + fld b 43 40, 32 + fld b 39 36]
  | 0x35 => [32 + fld b 49 46, fld b 45 41]
  | _ => []

/-- A DMA instruction is held while its queue holds 16 descriptors (R181). -/
def dmaHolds (k : CoreSt) (op : Nat) (b : BitVec 56) : List Cause :=
  match dmaQueueOf op b with
  | some q => if 16 ≤ (vget k.dma.queues q).descs.length then [.queue] else []
  | none => []

def State.modQueue (s : State) (c : CoreId) (q : Nat) (f : DmaQueue → DmaQueue) : State :=
  s.modDma c fun d => { d with queues := vmod d.queues q f }

/-- Segments of instruction memory that `rows` rows from a bundle write (R141), as bits. -/
def overlaySegs (bundle rows : Nat) : Word :=
  (List.range 64).foldl (fun w k =>
    if bundle / 128 ≤ k ∧ k ≤ (bundle + 4 * rows - 1) / 128 then w ||| fw k k 1 else w) 0

/-- A DMA instruction issues (R141, R181). -/
def dmaEffect (pre : CoreSt) (c : CoreId) (op : Nat) (b : BitVec 56) (s : State) : State :=
  match dmaDecode pre op b with
  | .error _ => s
  | .ok d =>
    let s := s.modQueue c (fld b 55 54) fun q =>
      { q with issued := q.issued + 1, descs := q.descs ++ [{ op := d, bundle := pre.sq.pc, num := q.issued }] }
    match d with
    | .copy _ _ .imem dst rows => s.modSq c fun q => { q with imemPend := q.imemPend ||| overlaySegs dst rows }
    | _ => s

/-! ### Accesses of a descriptor (R156, R166, R177, R186, R191, R198)

A run is the bytes [lo, hi) of one side of a transfer; its rows end at multiples of 256. Row j of a transfer has the places 4j (the list row
before it), 4j + 1 (its source beat) and 4j + 2 (its write) in the order of its instruction. -/

/-- Pages of a paged transfer (R196). -/
def pagesOf (l g : Nat) : Nat := (l + 32 * g - 1) / 49152 + 1 - l / 49152

/-- Rows of a descriptor. -/
def DmaOp.total : DmaOp → Nat
  | .copy _ _ _ _ rows => rows
  | .gather _ _ _ _ _ _ n rpe => n * rpe
  | .paged _ _ l _ _ g => (l + 32 * g + 255) / 256 - l / 256

/-- The descriptor has made its last source beat. -/
def Desc.sourceDone (d : Desc) : Bool := decide (d.op.total ≤ d.next)

/-- A tier address in another column than the core's own is remote (R187). -/
def isRemote (c : CoreId) (ta : Nat) : Bool := taColumn ta != c.toNat

/-- The first byte of row j of a run, and the end of the row. -/
def rowStart (lo j : Nat) : Nat := if j = 0 then lo else 256 * (lo / 256 + j)
def rowEnd (hi a : Nat) : Nat := min hi (256 * (a / 256) + 256)

/-- The byte address of the first row of a side (R184): lines, entries and bundles have 256, 16 and 64 bytes. -/
def byteAddr (sp : Space) (a : Nat) : Nat :=
  match sp with
  | .cm | .tier => a
  | .abuf => 256 * a
  | .ascale => 16 * a
  | .imem => 64 * a

/-- A-cycles from a source beat to the row's destination event (R186, R191, R198). -/
def readLag : Space → Nat
  | .tier => 4
  | _ => 2

/-- Who asks: a queue of a core, for a descriptor. -/
structure DmaUser where
  c : CoreId
  q : Nat
  num : BitVec 32

/-- The source beat of row `row` of a transfer, row j of a run: a core-memory row, or the tier block of which it is the first row; the
request for a block of another column leaves (R186, R187). -/
def DmaUser.source (u : DmaUser) (sp : Space) (lo hi j row at_ : Nat) : MemAsk :=
  let a := rowStart lo j
  let ask : MemAsk := { code := 8 + u.q, seq := 4 * row + 1, rows := [], at_ }
  match sp with
  | .tier =>
    let len := min hi (a / 2048 * 2048 + 2048) - a
    if j ≠ 0 ∧ a % 2048 ≠ 0 then { ask with move := .dmaBeat u.q u.num }
    else if isRemote u.c a then { ask with move := .dmaAsk u.q u.num a row len }
    else { ask with port := .tierRead, rows := [a / 2048], move := .dmaRead u.q u.num .tier a row len }
  | _ => { ask with rows := [a / 256], move := .dmaRead u.q u.num sp a row (rowEnd hi a - a) }

/-- The first row of a run that comes with row j: that of its block. -/
def sourceRow (sp : Space) (lo j : Nat) : Nat :=
  match sp with
  | .tier => max lo (rowStart lo j / 2048 * 2048) / 256 - lo / 256
  | _ => j

/-- The write of row `row` of a transfer, row j of a run, after its source row `src`. A tier unit is written with its last row of the
transfer; one of another column leaves (R186, R187). -/
def DmaUser.dest (u : DmaUser) (sp : Space) (lo hi j row : Nat) (src : Option Nat) (at_ : Nat) : List MemAsk :=
  let a := rowStart lo j
  let e := rowEnd hi a
  let ask : MemAsk := { code := 8 + u.q, seq := 4 * row + 2, src := src.map (4 * · + 1), write := true, rows := [], at_ }
  match sp with
  | .cm => [{ ask with rows := [a / 256], move := .dmaWrite u.q u.num .cm a row 1 }]
  | .abuf => [{ ask with port := .abuf, rows := [a / 256 % 512], move := .dmaWrite u.q u.num .abuf a row 1 }]
  | .tier =>
    if e ≠ hi ∧ e % 1024 ≠ 0 then []
    else
      let first := max lo ((e - 1) / 1024 * 1024)
      let n := (e - 1) / 256 - first / 256 + 1
      if isRemote u.c a then [{ ask with move := .dmaLeave u.q u.num first (row + 1 - n) n }]
      else [{ ask with port := .tierWrite, rows := [first / 1024], move := .dmaWrite u.q u.num .tier first (row + 1 - n) n }]
  | .imem => [{ ask with move := .dmaWrite u.q u.num .imem a row 1 }]
  | .ascale => []

/-- The accesses of a COPY that starts in a-cycle `t` (R186). What comes from another column is written when it arrives. -/
def DmaUser.copy (u : DmaUser) (ssp : Space) (src : Nat) (dsp : Space) (dst rows t : Nat) : List MemAsk :=
  let lo := byteAddr dsp dst
  match dsp with
  | .ascale => (List.range rows).flatMap fun k =>
      [{ u.source ssp src (src + 256 * rows) k k (t + 16 * k) with seq := 32 * k }]
        ++ (List.range 16).map (fun i =>
          { code := 8 + u.q, port := .ascale, seq := 32 * k + 1 + i, src := some (32 * k), write := true, at_ := t + 16 * k + 2 + i
            rows := [(dst + 16 * k + i) % 512], move := .dmaWrite u.q u.num .ascale (lo + 256 * k) k i })
        ++ [{ code := 8 + u.q, seq := 32 * k + 17, rows := [], at_ := t + 16 * k + 15, move := .dmaBeat u.q u.num }]
  | _ => (List.range rows).flatMap fun j =>
      u.source ssp src (src + 256 * rows) j j (t + j) ::
        if ssp = .tier ∧ isRemote u.c src then []
        else u.dest dsp lo (lo + 256 * rows) j j (some (sourceRow ssp src j)) (t + readLag ssp + j)

/-- The read of row k of a pointer list in a-cycle `t` (R191). -/
def DmaUser.listRow (u : DmaUser) (list k rpe t : Nat) : MemAsk :=
  { code := 8 + u.q, seq := 4 * (32 * k * rpe), rows := [list / 256 + k], at_ := t, move := .dmaList u.q u.num k }

/-- Whether the rows of a gather entry lie in the declared region (R190). -/
def entryOk (ssp : Space) (region rlen src rpe : Nat) : Bool :=
  let a := match ssp with
    | .cm => src % 2 ^ 23
    | _ => src
  src % 256 == 0 && decide (region ≤ a) && decide (a + 256 * rpe ≤ region + 256 * rlen)

/-- Entry e of a row of a pointer list. -/
def rowEntry (row : List Byte) (e : Nat) : Word := BitVec.ofNat 64 (ofLe ((row.drop (8 * e)).take 8))

/-- The accesses of an entry whose first beat is made in a-cycle `b` (R190, R191). -/
def DmaUser.entry (u : DmaUser) (ssp dsp : Space) (lo region rlen n rpe : Nat) (e : Nat) (w : Word) (b : Nat) : List MemAsk :=
  let ask (j : Nat) : MemAsk := { code := 8 + u.q, seq := 4 * j + 1, rows := [], at_ := b + (j - e * rpe) }
  let put (j src at_ : Nat) : List MemAsk := u.dest dsp lo (lo + 256 * (n * rpe)) j j (some src) at_
  let src := match ssp with
    | .cm => fld w 36 0 % 2 ^ 23
    | _ => fld w 36 0
  if bit w 63 && !entryOk ssp region rlen (fld w 36 0) rpe then
    [{ ask (e * rpe) with move := .dmaStop u.q u.num 0x0504 e }]
  else (List.range rpe).flatMap fun r =>
    let j := e * rpe + r
    if !bit w 63 then { ask j with move := .dmaZero u.q u.num j } :: put j j (b + r + readLag ssp)
    else u.source ssp src (src + 256 * rpe) r j (b + r) ::
      if ssp = .tier ∧ isRemote u.c src then [] else put j (e * rpe + sourceRow ssp src r) (b + r + readLag ssp)

/-- What follows the read of row k of a pointer list in a-cycle `t`: its entries, and the next row of the list (R191). -/
def DmaUser.entries (u : DmaUser) (op : DmaOp) (k : Nat) (row : List Byte) (t : Nat) : List MemAsk :=
  match op with
  | .gather ssp list dsp dst region rlen n rpe =>
    (List.range (min 32 (n - 32 * k))).flatMap (fun i =>
      u.entry ssp dsp (byteAddr dsp dst) region rlen n rpe (32 * k + i) (rowEntry row i) (t + 2 + i * rpe))
      ++ if 32 * (k + 1) < n then [u.listRow list (k + 1) rpe (t + 2 + 32 * rpe)] else []
  | _ => []

/-- The tier address of the page that an entry names (R192). -/
def entryTa (e : BitVec 32) : Nat := fld e 30 20 * 2 ^ 26 + fld e 19 10 * 49152

/-- The fault of the first beat of a page, from its entry and the slot's generation (R194). -/
def pageFault (e : BitVec 32 × BitVec 8) : Option Nat :=
  if !bit e.1 31 then some 0x0505 else if fld e.1 9 2 ≠ e.2.toNat then some 0x0506 else none

/-- The accesses of page p of a paged transfer that started in a-cycle `s` (R198). -/
def DmaUser.page (u : DmaUser) (toTier : Bool) (l : Nat) (lsp : Space) (loc g s p : Nat) (e : BitVec 32 × BitVec 8) : List MemAsk :=
  let x := max l (49152 * (l / 49152 + p))
  let y := min (l + 32 * g) (49152 * (l / 49152 + p + 1))
  let lo := entryTa e.1 + x % 49152
  let hi := lo + (y - x)
  let first := x / 256 - l / 256
  match pageFault e with
  | some code =>
    [{ code := 8 + u.q, seq := 4 * first + 1, rows := [], at_ := s + 20 + first, move := .dmaStop u.q u.num code p }]
  | none => (List.range ((y - 1) / 256 - x / 256 + 1)).flatMap fun i =>
    let j := first + i
    if toTier then
      u.source lsp loc (loc + 32 * g) j j (s + 20 + j) :: u.dest .tier lo hi i j (some j) (s + 22 + j)
    else
      u.source .tier lo hi i j (s + 20 + j) ::
        if isRemote u.c lo then []
        else u.dest lsp loc (loc + 32 * g) j j (some (first + sourceRow .tier lo i)) (s + 24 + j)

/-- The accesses of a paged transfer whose pages have all been looked up; none follows a page that faults (R194, R198). -/
def DmaUser.paged (u : DmaUser) (op : DmaOp) (s : Nat) (looked : List (BitVec 32 × BitVec 8)) : List MemAsk :=
  match op with
  | .paged toTier _ l lsp loc g =>
    let good := looked.takeWhile fun e => (pageFault e).isNone
    (looked.take (good.length + 1)).zipIdx.flatMap fun (e, p) => u.page toTier l lsp loc g s p e
  | _ => []

/-! ### Descriptors of a queue -/

/-- The descriptor with a number. -/
def findDesc (s : State) (c : CoreId) (q : Nat) (num : BitVec 32) : Option Desc :=
  (vget (s.core c).dma.queues q).descs.find? fun d => d.num == num

def State.modDesc (s : State) (c : CoreId) (q : Nat) (num : BitVec 32) (f : Desc → Desc) : State :=
  s.modQueue c q fun x => { x with descs := x.descs.map fun d => if d.num = num then f d else d }

/-- Whether nothing of a descriptor is under way. -/
def Desc.quiet (d : Desc) (asks : List MemAsk) : Bool :=
  d.rows.isEmpty && d.requests.isEmpty && d.units.isEmpty && d.acks.isEmpty && !(d.started && asks.any fun a => a.id == d.ask)

/-- Ended descriptors leave once what preceded the fault has landed (R183). -/
def DmaQueue.sweep (q : DmaQueue) (asks : List MemAsk) : DmaQueue :=
  let under (d : Desc) : Bool := d.ended && !d.quiet asks
  if q.descs.any under then q else { q with descs := q.descs.filter fun d => !d.ended }

def CoreSt.sweepDma (k : CoreSt) : CoreSt :=
  if k.dma.queues.toList.any fun q => q.descs.any (·.ended) then
    { k with dma := { k.dma with queues := k.dma.queues.map fun q => q.sweep k.cm.asks } }
  else k

/-- Whether a write of a queue has its rows, or is on its way. -/
def MemAsk.landing (a : MemAsk) (d : Desc) : Bool :=
  match a.move with
  | .dmaWrite _ _ _ _ row n => a.port == .ascale || (List.range n).all fun i => d.rows.any fun r => r.1 == row + i
  | .dmaLeave _ _ _ row n => (List.range n).all fun i => d.rows.any fun r => r.1 == row + i
  | _ => false

/-- A descriptor faults: it and every later one of its queue end, and the core halts (R145, R183). What it read before is written. -/
def dmaRaise (s : State) (c : CoreId) (q : Nat) (d : Desc) (code item : Nat) : State :=
  let before (x : Desc) : Bool := x.num != d.num
  let s := s.modQueue c q fun x => { x with
    descs := x.descs.takeWhile before ++ (x.descs.dropWhile before).map fun x => { x with ended := true } }
  let s := s.modCm c fun m => { m with asks := m.asks.filter fun a => a.id != d.ask || a.landing d }
  let s := s.modDma c fun x => { x with fault := firstFault x.fault (tmFaultWord code q item d.bundle.toNat) }
  s.raise c code 6 d.bundle.toNat

/-! ### What a served access does -/

/-- Bytes of a source are read: one core-memory row, or bytes of one tier block, of which every granule is checked (R169, R176, R199).
A byte that a unit write of the same a-cycle writes is a free value (log entry 46); `old` is tier memory before those writes, `written`
their flat addresses. -/
def sourceRead (s : State) (c : CoreId) (sp : Space) (a len : Nat) (old : Mem) (written : List (Nat × Nat))
    (k : List Byte → State → State) : State :=
  match sp with
  | .tier =>
    let f := taFlat (s.remap a)
    let clash (i : Nat) : Bool := written.any fun w => decide (w.1 ≤ f + i ∧ f + i < w.1 + w.2)
    checked s .tier 0 (f / 2048 * 2048) (f / 2048 * 2048 + 2048) fun s =>
      let new := s.tierFetch a len
      k (if written.isEmpty then new
        else new.mapIdx fun i x => if clash i then Config.portClash (f + i) (Mem.get old (f + i)) x else x) s
  | _ => cmChecked s c a len fun s => k (s.cmRead c a len) s

/-- Bytes of a destination are written (R184, R186). -/
def destWrite (s : State) (c : CoreId) (sp : Space) (a : Nat) (data : List Byte) : State :=
  let n := data.length
  match sp with
  | .cm => (clearErrs s .cm c a (a + n)).cmWrite c a data
  | .tier => s.tierWrite a data
  | .abuf =>
    let a := a % 131072
    let head := min n (131072 - a)
    (clearErrs (clearErrs s .abuf c a (a + head)) .abuf c 0 (n - head)).modMe c fun me => { me with
      abuf := Mem.write (Mem.write me.abuf a (data.take head)) 0 (data.drop head) }
  | .ascale =>
    let a := a % 8192
    (clearErrs s .ascale c a (a + n)).modMe c fun me => { me with ascale := Mem.write me.ascale a data }
  | .imem => (clearErrs s .imem c a (a + n)).modSq c fun q => { q with imem := Mem.write q.imem a data }

/-- The overlay's last write to a segment has landed: its PENDING bit clears (R141). -/
def overlayLanded (s : State) (c : CoreId) (op : DmaOp) (a : Nat) : State :=
  match op with
  | .copy _ _ .imem dst rows =>
    let next := a / 64 + 4
    if next % 128 = 0 ∨ next = dst + 4 * rows then
      s.modSq c fun q => { q with imemPend := q.imemPend &&& ~~~fw (a / 64 / 128) (a / 64 / 128) 1 }
    else s
  | _ => s

/-- Rows that were read wait for their writes. -/
def Desc.keep (d : Desc) (a row : Nat) (data : List Byte) : Desc :=
  { d with rows := d.rows ++ (rowPieces (data.length / 256 + 2) a data.length).zipIdx.map fun (p, i) =>
      (row + i, slice data (p.1 - a) p.2) }

/-- Rows row to row + n − 1, joined. -/
def Desc.take (d : Desc) (row n : Nat) : List Byte :=
  (List.range n).flatMap fun i => match d.rows.find? (fun r => r.1 == row + i) with
    | some r => r.2
    | none => []

def Desc.drop (d : Desc) (row n : Nat) : Desc := { d with rows := d.rows.filter fun r => !(decide (row ≤ r.1 ∧ r.1 < row + n)) }

/-- A COPY to the A-scale store counts its source beats at the end of each row's sixteen a-cycles (R186). -/
def DmaOp.toScale : DmaOp → Bool
  | .copy _ _ .ascale _ _ => true
  | _ => false

/-- Everything later of a queue's transfer waits `n` a-cycles more (R159, R264). -/
def State.queueLate (s : State) (c : CoreId) (q : Nat) (d : Desc) (n : Nat) : State :=
  if n = 0 then s
  else s.modCm c fun m => { m with asks := m.asks.map fun a =>
    if a.code = 8 + q ∧ d.ask ≤ a.id ∧ !(a.id == d.ask && a.landing d) then { a with at_ := a.at_ + n } else a }

/-- Who sends the rows of a DMA transfer of a core (R266): requester 1 + q at the core's own stop, 5 at that of the other column. -/
def dmaFrom (c : CoreId) (src req : Nat) : NetFrom :=
  { who := { owner := c, saddle := false, dma := true }, src, req := fun k => if k = 0 then req else 0 }

/-- `n` rows of a DMA transfer leave, one in an a-cycle from a-cycle x on (R259); with the a-cycles that each has lost. -/
def State.dmaRows (s : State) (f : NetFrom) (x n : Nat) (gs : List NetStage) : State × List Nat :=
  (List.range n).foldl (fun (y : State × List Nat) i =>
    let late := y.2.getLastD 0
    let (s, h) := y.1.rowLeaves f (x + i + late) gs
    (s, y.2 ++ [late + h])) (s, [])

/-- Rows of a queue's transfer leave the core for the port of tier address a; the transfer's later rows wait with one that is held. -/
def State.dmaGo (s : State) (c : CoreId) (q : Nat) (num : BitVec 32) (a x n : Nat) (f : Nat → State → State) : State :=
  let (s, late) := s.dmaRows (dmaFrom c c.toNat (1 + q)) x n (netRoute (.stop c.toNat) (.stop (taColumn a)) 1)
  let late := late.getLastD 0
  let s := f late s
  match findDesc s c q num with
  | some d => s.queueLate c q d late
  | none => s

/-- What a served access of a DMA queue does. -/
def dmaServed (s : State) (c : CoreId) (id : Nat) (old : Mem) (written : List (Nat × Nat)) (m : Move) : State :=
  let beat (d : Desc) : Desc := { d with next := d.next + 1 }
  let t := (s.core c).sq.clk
  match m with
  | .dmaBeat q num => s.modDesc c q num beat
  | .dmaRead q num sp a row len => sourceRead s c sp a len old written fun data s =>
      s.modDesc c q num fun d => (if d.op.toScale then d else beat d).keep a row data
  | .dmaAsk q num a row len => s.dmaGo c q num a t 1 fun late s => s.modDesc c q num fun d =>
      { beat d with requests := d.requests ++ [(t + late + netLatency (.stop c.toNat) (.stop (taColumn a)), a, row, len)] }
  | .dmaZero q num row => s.modDesc c q num fun d => (beat d).keep 0 row (List.replicate 256 0)
  | .dmaStop q num code item => match findDesc s c q num with
    | some d =>
      let s := match code with
        | 0x0505 => { s with tm := { s.tm with pmStat := satAdd s.tm.pmStat 31 24 1 } }
        | 0x0506 => { s with tm := { s.tm with pmStat := satAdd s.tm.pmStat 23 16 1 } }
        | _ => s
      dmaRaise s c q d code item
    | none => s
  | .dmaWrite q num sp a row n => match findDesc s c q num with
    | some d =>
      if sp = Space.ascale then
        let s := destWrite s c sp (a + 16 * n) (slice (d.take row 1) (16 * n) 16)
        if n = 15 then s.modDesc c q num (·.drop row 1) else s
      else (overlayLanded (destWrite s c sp a (d.take row n)) c d.op a).modDesc c q num (·.drop row n)
    | none => s
  | .dmaLeave q num a row n => s.dmaGo c q num a (t + 1 - n) n fun late s => s.modDesc c q num fun d =>
      { d.drop row n with units := d.units ++ [(t + late + netLatency (.stop c.toNat) (.stop (taColumn a)), a, d.take row n)] }
  | .dmaList q num k => match findDesc s c q num with
    | some d => match d.op with
      | .gather _ list .. => cmChecked s c (list + 256 * k) 256 fun s =>
          let u : DmaUser := { c, q, num }
          s.modCore c fun x => x.postAs id (u.entries d.op k (s.cmRead c (list + 256 * k) 256) t)
      | _ => s
    | none => s
  | _ => s

/-! ### Starts and completions -/

/-- A replay freezes the core (R83, R84). -/
def CoreSt.frozen (k : CoreSt) : Bool := k.me.tiles.toList.any fun t => t.st == .replay

/-- The first descriptor that has not started, when all before it have made their last source beat (R182). -/
def nextToStart (ds : List Desc) : Option Desc :=
  match ds.findIdx? (fun d => !d.started) with
  | some i => if (ds.take i).all Desc.sourceDone && !ds.any (·.ended) then ds[i]? else none
  | none => none

/-- DMA_DESCRIPTOR_START (R182, R186): the next descriptor of the queue starts in the present a-cycle; its beats follow. -/
def dmaStart (c : CoreId) (q : BitVec 2) (s : State) : State :=
  let q := q.toNat
  let k := s.core c
  let t := k.sq.clk
  match nextToStart (vget k.dma.queues q).descs with
  | none => s
  | some d =>
    if k.frozen then s
    else
      let u : DmaUser := { c, q, num := d.num }
      let asks := match d.op with
        | .copy ssp src dsp dst rows => u.copy ssp src dsp dst rows t
        | .gather _ list _ _ _ _ _ rpe => [u.listRow list 0 rpe t]
        | .paged .. => []
      let s := s.modDesc c q d.num fun d => { d with started := true, from_ := t, ask := k.cm.nextAsk }
      s.modCore c fun k => { k.postAs k.cm.nextAsk asks with cm := { (k.postAs k.cm.nextAsk asks).cm with nextAsk := k.cm.nextAsk + 1 } }

def execDmaDescriptorStart (c : CoreId) (q : BitVec 2) (s : State) : Res := live s (.next (dmaStart c q s))

/-- DMA_DESCRIPTOR_DONE (R181): the head's last write has landed and its acknowledgements are in; DONE advances. -/
def dmaDone (c : CoreId) (q : BitVec 2) (s : State) : State :=
  let k := s.core c
  match (vget k.dma.queues q.toNat).descs.head? with
  | none => s
  | some d =>
    if d.started && !d.ended && d.sourceDone && d.quiet k.cm.asks then
      s.modQueue c q.toNat fun x => { x with done := x.done + 1, descs := x.descs.tail }
    else s

def execDmaDescriptorDone (c : CoreId) (q : BitVec 2) (s : State) : Res := live s (.next (dmaDone c q s))

/-- REMOTE_DMA_ACK (R187, R259): an acknowledgement that has landed returns to the oldest descriptor that awaits one. -/
def remoteAck (c : CoreId) (q : BitVec 2) (s : State) : State :=
  let k := s.core c
  match (vget k.dma.queues q.toNat).descs.find? (fun d => d.acks.any fun t => decide (t ≤ k.sq.clk)) with
  | some d => s.modDesc c q.toNat d.num fun d => { d with acks := d.acks.tail }
  | none => s

def execRemoteDmaAck (c : CoreId) (q : BitVec 2) (s : State) : Res := live s (.next (remoteAck c q s))

/-! ### The page map (R192 to R198) -/

/-- Page-map entry of slot and page. -/
def pageEntry (s : State) (slot page : Nat) : BitVec 32 := BitVec.ofNat 32 (Mem.num s.pageMap (4 * (slot * 4096 + page)) 4)

/-- A running descriptor with a page still to look up. -/
def Desc.looking (d : Desc) : Bool :=
  match d.op with
  | .paged _ _ l _ _ g => d.started && !d.ended && decide (d.looked.length < pagesOf l g)
  | _ => false

/-- Whether a core asks its look-up port in a-cycle `t`. -/
def CoreSt.looksUp (k : CoreSt) (t : Nat) : Bool :=
  k.dma.queues.toList.any fun q => q.descs.any fun d => d.looking && decide (d.from_ ≤ t)

/-- Whether the port of a quarter serves another in a core's present a-cycle: one look-up has been made, or a core of lower index asks
(R193). -/
def lookTaken (s : State) (c : CoreId) : Bool :=
  let t := (s.core c).sq.clk
  decide (t < vget s.tm.lookFree (quarterOf c)) ||
    (List.range (c.toNat % 64)).any fun i => (s.core (BitVec.ofNat 8 (64 * quarterOf c + i))).looksUp t

/-- A held a-cycle of a look-up (R193). -/
def CoreSt.lookupHeld (k : CoreSt) : CoreSt :=
  { k with dma := { k.dma with hold := satAdd k.dma.hold 47 32 1 }, sq := k.sq.deviate 0x03 1 }

/-- PAGE_MAP_LOOKUP (R193, R194, R198): the entry of the next page is read with the slot's generation, unless the port holds the look-up
in this a-cycle. Every look-up of a transfer comes before its first beat, so with the last one its beats are known. -/
def pageMapLookup (c : CoreId) (q : BitVec 2) (s : State) : State :=
  let k := s.core c
  let q := q.toNat
  let t := k.sq.clk
  match (vget k.dma.queues q).descs.find? fun d => d.looking && decide (d.from_ ≤ t) with
  | none => s
  | some d =>
    match d.op with
    | .paged _ slot l _ _ g =>
      if k.frozen then s
      else if lookTaken s c then (s.modCore c CoreSt.lookupHeld).modDesc c q d.num fun d => { d with from_ := t + 1 }
      else
        let page := l / 49152 + d.looked.length
        let a := 4 * (slot * 4096 + page)
        checked s .pageMap 0 a (a + 4) fun s =>
          let s := { s with tm := { s.tm with
            pmStat := satAdd s.tm.pmStat 63 32 1, lookFree := vset s.tm.lookFree (quarterOf c) (t + 1) } }
          let looked := d.looked ++ [(pageEntry s slot page, vget s.tm.slotGen slot)]
          let s := s.modDesc c q d.num fun d => { d with looked, from_ := t + 1 }
          if looked.length = pagesOf l g then
            let u : DmaUser := { c, q, num := d.num }
            s.modCore c fun k => k.postAs d.ask (u.paged d.op (t + 1 - looked.length) looked)
          else s
    | _ => s

/-! ### Other columns (R178, R187, R259) -/

/-- Whether a side of a port is taken in the present a-cycle, before any request of another core: by the core above, by a request
already served, or by a guard (R178, R180). -/
def portTaken (s : State) (col : Nat) (sd : Side) : Bool :=
  let k := s.core (BitVec.ofNat 8 col)
  k.due.any (fun a => a.port == sidePort sd)
    || k.cm.inUse.any (fun e => decide (k.sq.clk ≤ e.1) && e.2.meets (sidePort sd) 0)
    || ((s.port col sd).guarded && (s.port col sd).beating k.sq.clk)

/-- What a queue has under way to other columns comes `n` a-cycles later. -/
def State.awayLate (s : State) (c : CoreId) (q n : Nat) : State :=
  if n = 0 then s
  else s.modQueue c q fun x => { x with descs := x.descs.map fun d => { d with
    requests := d.requests.map fun r => (r.1 + n, r.2), units := d.units.map fun u => (u.1 + n, u.2) } }

/-- A request of a core at another column is held for an a-cycle: the counts of R178, and everything later of its queue moves (R159). -/
def remoteHeld (s : State) (c : CoreId) (q : Nat) (d : Desc) (col : Nat) (sd : Side) : State :=
  let s := s.colStat col 63 48 1
  let s := if (s.port col sd).guarded then s.colStat col 31 16 1 else s
  let s := { s with pn := waitArb s.pn (sideKind sd) col 5 }
  let s := (s.awayLate c q 1).queueLate c q d 1
  s.modCore c fun k => { k with dma := { k.dma with hold := satAdd k.dma.hold 63 48 1 }, sq := k.sq.deviate 0x03 1 }

/-- A request of another core is served at a side of a port, which is taken for the a-cycle. -/
def remoteServed (s : State) (col : Nat) (sd : Side) : State :=
  let pn := servedArb (countArb s.pn (sideKind sd) col 5 fun x => { x with grants := sat32 (x.grants + 1) }) (sideKind sd) col 5
  ({ s with pn } : State).modCm (BitVec.ofNat 8 col) fun m => { m with
    inUse := m.inUse ++ [((s.colClk col), { port := sidePort sd, unit := 0, row := 0, code := 12, write := sd == .write })] }

/-- The rows of a block that was read in another column are written as they arrive (R187, R259): `late` tells the a-cycles that each has lost
on its way. -/
def arrivalAsks (u : DmaUser) (d : Desc) (a row t : Nat) (late : List Nat) : List MemAsk :=
  late.zipIdx.flatMap fun (held, i) =>
    let j := row + i
    let at_ := t + 4 + netLatency (.stop (taColumn a)) (.stop u.c.toNat) + i + held
    match d.op with
    | .copy _ _ dsp dst rows => u.dest dsp (byteAddr dsp dst) (byteAddr dsp dst + 256 * rows) j j none at_
    | .gather _ _ dsp dst _ _ n rpe => u.dest dsp (byteAddr dsp dst) (byteAddr dsp dst + 256 * (n * rpe)) j j none at_
    | .paged _ _ _ lsp loc g => u.dest lsp loc (loc + 32 * g) j j none at_

/-- REMOTE_DMA_REQUEST (R178, R187, R259): the oldest unit, or else the oldest block request, of a queue that has landed at another
column's port is served there, or held. -/
def remoteRequest (c : CoreId) (q : BitVec 2) (s : State) : State :=
  let q := q.toNat
  let t := (s.core c).sq.clk
  let ds := (vget (s.core c).dma.queues q).descs
  match ds.find? (fun d => d.units.any fun u => decide (u.1 ≤ t)), ds.find? (fun d => d.requests.any fun r => decide (r.1 ≤ t)) with
  | some d, _ =>
    match d.units with
    | (_, a, data) :: rest =>
      let col := taColumn a
      let s := portScheduled s col .write
      if portTaken s col .write then remoteHeld s c q d col .write
      else
        let s := (remoteServed s col .write).tierWrite a data
        let (s, late) := s.dmaRows (dmaFrom c col 5) t 1 (netRoute (.stop col) (.stop c.toNat) 0)
        s.modDesc c q d.num fun d => { d with
          units := rest, acks := d.acks ++ [t + late.getLastD 0 + netLatency (.stop col) (.stop c.toNat)] }
    | [] => s
  | none, some d =>
    match d.requests with
    | (_, a, row, len) :: rest =>
      let col := taColumn a
      let s := portScheduled s col .read
      if portTaken s col .read then remoteHeld s c q d col .read
      else sourceRead (remoteServed s col .read) c .tier a len [] [] fun data s =>
        let u : DmaUser := { c, q, num := d.num }
        let s := s.modDesc c q d.num fun d => { d.keep a row data with requests := rest }
        let (s, late) := s.dmaRows (dmaFrom c col 5) (t + 4) ((a + len - 1) / 256 - a / 256 + 1) (netRoute (.stop col) (.stop c.toNat) 0)
        let s := (s.awayLate c q (late.getLastD 0)).queueLate c q d (late.getLastD 0)
        s.modCore c fun k => k.postAs d.ask (arrivalAsks u d a row t late)
    | [] => s
  | none, none => s

def execRemoteDmaRequest (c : CoreId) (q : BitVec 2) (s : State) : Res := live s (.next (remoteRequest c q s))

/-- TM_DMA_STATUS (R201). -/
def dmaStatus (d : Dma) : Word :=
  (d.queues.toList.zipIdx).foldl (fun w (q, i) => w ||| fw (5 * i + 4) (5 * i) q.descs.length) 0

end Sys2Proof.Machine
end

