-- ==== Sys2Proof/Machine/Channel.lean ====
section
/-! DEFINITION. Channels: endpoints, handshakes, rings and records, credit, closing and the loss of a peer (R218 to R240,
R252, R363). -/

namespace Sys2Proof.Machine

/-! ### Endpoints of a core and of the host port -/

/-- A unit that has endpoints: a core, or the host port with its saddle endpoints (R220, R363). -/
inductive Home where
  | core (c : CoreId)
  | port
deriving DecidableEq, Repr

def State.sendEp (s : State) (h : Home) (e : Nat) : SendEp :=
  match h with
  | .core c => vget (s.core c).cq.send e
  | .port => vget s.hp.nsend e

def State.recvEp (s : State) (h : Home) (e : Nat) : RecvEp :=
  match h with
  | .core c => vget (s.core c).cq.recv e
  | .port => vget s.hp.nrecv e

def State.modSend (s : State) (h : Home) (e : Nat) (f : SendEp → SendEp) : State :=
  match h with
  | .core c => s.modCq c fun q => { q with send := vmod q.send e f }
  | .port => { s with hp := { s.hp with nsend := vmod s.hp.nsend e f } }

def State.modRecv (s : State) (h : Home) (e : Nat) (f : RecvEp → RecvEp) : State :=
  match h with
  | .core c => s.modCq c fun q => { q with recv := vmod q.recv e f }
  | .port => { s with hp := { s.hp with nrecv := vmod s.hp.nrecv e f } }

/-- Bytes of the store that holds a unit's rings: core memory, or the notice store (R363). -/
def State.ringRead (s : State) (h : Home) (a len : Nat) : List Byte :=
  match h with
  | .core c => s.cmRead c a len
  | .port => Mem.read s.hp.notice a len

def State.ringWrite (s : State) (h : Home) (a : Nat) (bs : List Byte) : State :=
  match h with
  | .core c => (clearErrs s .cm c a (a + bs.length)).cmWrite c a bs
  | .port => { s with hp := { s.hp with notice := Mem.write s.hp.notice a bs } }

/-- A ring read through the code check of its store. -/
def ringChecked (s : State) (h : Home) (a len : Nat) (k : State → State) : State :=
  match h with
  | .core c => cmChecked s c a len k
  | .port => k s

/-- The identity of endpoint e of a unit on this package. -/
def Home.peer (h : Home) (e : Nat) (inc : BitVec 16) : Peer :=
  match h with
  | .core c => { unit := c, ep := BitVec.ofNat 8 e, inc }
  | .port => { saddle := true, unit := 1, ep := BitVec.ofNat 8 e, inc }

/-- Whether a unit, or the package, fences (R380). -/
def State.fencing (s : State) (h : Home) : Bool :=
  s.cu.fences.contains .package ||
  match h with
  | .core c => (s.core c).sq.st == .resetting
  | .port => false

/-- A reply whose target has another incarnation is discarded and counted (R240, R382). -/
def State.stale (s : State) : State := { s with cu := { s.cu with staleReply := satWord s.cu.staleReply 1 } }

/-- The mark of a response or credit return to a combining queue or the admission channel. -/
def queueMark (p : Peer) : Word := if p.queue then 64 else 0

/-- A packet from one identity to another. -/
def toPeer (src dst : Peer) (kind : PktKind) : Pkt :=
  { kind, vc := kind.vc, dsad := dst.saddle, ssad := src.saddle, dstSvc := dst.svc, dstChip := dst.chip, dstPinc := dst.pinc
    dstUnit := dst.unit, srcUnit := src.unit, dstInc := dst.inc, srcInc := src.inc, dstEp := dst.ep, srcEp := src.ep
    word := queueMark dst, fabric := !dst.loc }

/-- The identity of a packet's source. -/
def srcPeer (p : Pkt) : Peer :=
  { loc := !p.fabric, svc := p.srcSvc, chip := p.srcChip, pinc := p.srcPinc, saddle := p.ssad, queue := p.ssad && p.srcUnit == 0
    unit := p.srcUnit, ep := p.srcEp, inc := p.srcInc }

/-- A core's CQ fault raised after issue: CQ_FAULT takes the first, and the core faults in the C slot (R145, R252). -/
def State.cqRaise (s : State) (c : CoreId) (code reason idx : Nat) (bundle : BitVec 13) : State :=
  let s := s.modCq c fun q => { q with fault := firstFault q.fault (cqFaultWord code reason idx 0 bundle.toNat) }
  s.raise c code 7 bundle.toNat

/-! ### Handshakes (R226) -/

/-- Ring size of an accept word's SIZE (R224). -/
def ringSize (size : BitVec 4) : Nat := 4096 * 2 ^ size.toNat

def RecvEp.z (r : RecvEp) : Nat := ringSize r.size

/-- Rows of a record with `len` payload bytes (R228). -/
def recordRows (len : Nat) : Nat := (32 + len + 255) / 256

/-- The reason code that stands for a broken milepost rule in a handshake reply (log entry 22). -/
def milepostReason : Nat := 15

/-- A handshake is answered. -/
def hsReply (s : State) (p : Pkt) (status reason credit : Nat) (inc : BitVec 16) (extra : Word) : State :=
  s.send { p.reply status reason credit extra with srcInc := inc }

/-- A CH.OPEN meets a LISTENING endpoint (R226): the last four rows of the table, in order. -/
def resolveOpen (s : State) (h : Home) (e : Nat) (p : Pkt) : State :=
  let r := s.recvEp h e
  let other := p.fabric && !(p.srcSvc == s.svc && p.srcChip == s.chip)
  let bankBad := match h with
    | .core c => other && !insideAsync (s.core c) r.base r.z
    | .port => false
  if bankBad then hsReply s p 4 4 0 r.inc 0
  else if r.z < recordRows (fld p.arg 63 47) * 256 + 256 then hsReply s p 4 5 0 r.inc 0
  else if r.mp.toNat ≤ fld p.arg 46 39 then hsReply s p 4 milepostReason 0 r.inc 0
  else
    let s := s.modRecv h e fun r => { r with st := .opened, peer := srcPeer p }
    hsReply s p 0 0 (r.z - 256) r.inc (BitVec.ofNat 64 (256 * r.wptr))

/-- A CH.OPEN arrives at a receive endpoint (R226, R19). -/
def openArrives (s : State) (h : Home) (e : Nat) (p : Pkt) : State :=
  let r := s.recvEp h e
  let off := match h with
    | .core c => s.fusedOff c
    | .port => false
  if off then hsReply s p 4 1 0 r.inc 0
  else if s.fencing h then hsReply s p 2 7 0 r.inc 0
  else if r.waiting.isSome then hsReply s p 4 3 0 r.inc 0
  else if r.st = .listening then resolveOpen s h e p
  else s.modRecv h e fun r => { r with waiting := some p }

/-- The endpoint becomes LISTENING, and a request that waits there is resolved (R224, R226, R227). -/
def listen (s : State) (h : Home) (e : Nat) : State :=
  let w := (s.recvEp h e).waiting
  let s := s.modRecv h e fun r => { r with st := .listening, peer := {}, waiting := none }
  match w with
  | some p => resolveOpen s h e p
  | none => s

/-- The wait window of a request ends at an endpoint that is not LISTENING (R226). -/
def openExpires (s : State) (h : Home) (e : Nat) : State :=
  match (s.recvEp h e).waiting with
  | some p => hsReply (s.modRecv h e fun r => { r with waiting := none }) p 4 2 0 (s.recvEp h e).inc 0
  | none => s

/-- Both ends of a channel hold the reply (R226): the sender leaves OPENING. A refusal is recorded by the caller. -/
def openedBy (s : State) (h : Home) (e : Nat) (p : Pkt) : State :=
  s.modSend h e fun x => { x with
    st := .opened, credit := fld p.arg 55 35, ring := fld p.arg 55 35 + 256, wcopy := p.word.toNat / 256
    peer := { x.peer with inc := p.srcInc, chip := p.srcChip, pinc := p.srcPinc } }

/-- A send endpoint enters CLOSED or BROKEN with a new incarnation (R221). -/
def SendEp.leave (x : SendEp) (st : SendState) : SendEp := { x with st, inc := x.inc + 1, flights := [] }

/-- HANDSHAKE_REPLY to a CH.OPEN of a core or of a saddle endpoint (R226, R363). -/
def openReply (s : State) (h : Home) (e : Nat) (p : Pkt) : State :=
  let x := s.sendEp h e
  if x.st ≠ .opening ∨ x.inc ≠ p.dstInc then s.stale
  else
    let status := fld p.arg 63 60
    if status = 0 then openedBy s h e p
    else
      let s := s.modSend h e fun x => x.leave .closed
      match h with
      | .port => s
      | .core c =>
        if fld p.arg 59 56 = milepostReason then s.cqRaise c 0x0602 0 e x.bundle
        else s.cqRaise c 0x0606 (if status = 2 then 7 else fld p.arg 59 56) e x.bundle

/-! ### Records (R228 to R234) -/

/-- A record header (R229); SRC_CHIP is that of the sending package. -/
def header (s : State) (kind len tag : Nat) (src : Peer) (dstInc : BitVec 16) (seq aux : Nat) : List Byte :=
  leBytes 4 (kind * 2 ^ 30 + len) ++ leBytes 2 tag ++ leBytes 2 (if src.loc then s.chip else src.chip).toNat ++ [src.unit, src.ep]
    ++ leBytes 2 dstInc.toNat ++ leBytes 2 src.inc.toNat ++ [if src.saddle then 1 else 0, 0] ++ leBytes 8 seq
    ++ leBytes 4 aux ++ leBytes 4 0

/-- The number of a row in the free bytes of its body. -/
def tailKey (p : Pkt) : Nat :=
  ofLe ([p.srcUnit, p.srcEp, if p.ssad then 1 else 0] ++ leBytes 2 p.srcInc.toNat ++ wordBytes p.arg)

/-- The rows of a record take its bytes, 256 each; what the record does not give is a free value (log entry 4). -/
def fillRows (ps : List Pkt) (bytes : List Byte) : List Pkt :=
  ps.zipIdx.map fun (p, i) =>
    let b := slice bytes (256 * i) 256
    { p with body := b ++ (List.range (256 - b.length)).map (Config.rowTail (tailKey p)) }

/-- The rows of a record on their way from a sender, with their bodies still to come (R228). -/
def SendEp.rowPkts (x : SendEp) (src : Peer) (kind rows : Nat) : List Pkt :=
  (List.range rows).map fun k => { toPeer src x.peer .chRow with
    arg := fw 63 52 (x.wcopy / 256 + k) ||| fw 51 51 (if k + 1 = rows then 1 else 0) ||| fw 39 0 x.seq
    word := BitVec.ofNat 64 kind }

/-- CREDIT falls and W′ advances by the bytes of a record (R233). A PAD's LEN is its distance to the ring end and takes one row. -/
def SendEp.spend (x : SendEp) (kind len : Nat) : SendEp :=
  let n := if kind = 1 then len else 256 * recordRows len
  { x with
    credit := x.credit - n
    wcopy := if x.ring = 0 then 0 else (x.wcopy + n) % x.ring
    seq := x.seq + if kind = 1 then 0 else 1 }

/-- A record whose bytes are known leaves a sender (R228, R233, R234). -/
def State.sendRecord (s : State) (src : Peer) (x : SendEp) (kind len tag aux : Nat) (payload : List Byte) :
    SendEp × State :=
  let ps := x.rowPkts src kind (if kind = 1 then 1 else recordRows len)
  (x.spend kind len, (fillRows ps (header s kind len tag src x.peer.inc x.seq aux ++ payload)).foldl State.send s)

/-- The reads of a record's payload, or of a contribution, in core memory (R156, R234, R244): row j in a-cycle t + j; with it row j of the
record leaves, and with the last one what is left. -/
def sendAsks (ps : List Pkt) (head : List Byte) (a len t : Nat) : List MemAsk :=
  let n := max 1 ((len + 255) / 256)
  (List.range n).map fun j =>
    { code := 12, seq := j, rows := if len = 0 then [] else [a / 256 + j], at_ := t + j
      move := .sendRows (if j + 1 = n then ps.drop j else (ps.drop j).take 1) (if j = 0 then head else [])
        (a + 256 * j) (min 256 (len - 256 * j)) }

/-- What a read leaves of a record's bytes stands before those of the next read. -/
def Cm.carry (m : Cm) (id seq : Nat) (bytes : List Byte) : Cm :=
  let put (a : MemAsk) : MemAsk := match a.move with
    | .sendRows ps _ addr len => { a with move := .sendRows ps bytes addr len }
    | .resultRow k ps _ lo hi => { a with move := .resultRow k ps bytes lo hi }
    | _ => a
  match m.asks.findIdx? (fun a => a.id == id && decide (seq < a.seq) && put a != a) with
  | some i => { m with asks := m.asks.modify i put }
  | none => m

/-- The later accesses of a transfer ask `n` a-cycles later (R159, R264). -/
def Cm.delay (m : Cm) (id seq n : Nat) : Cm :=
  if n = 0 then m
  else { m with asks := m.asks.map fun a => if a.id = id ∧ seq < a.seq then { a with at_ := a.at_ + n } else a }

/-- Rows leave with the bytes that a read has brought, one in an a-cycle; the later ones of the transfer wait with a row that is held (R234,
R264). -/
def State.leaveRows (s : State) (c : CoreId) (id seq : Nat) (ps : List Pkt) (bytes : List Byte) : State :=
  let clk := (s.core c).sq.clk
  let (s, late, _) := (fillRows ps bytes).foldl (fun (x : State × Nat × Nat) p =>
    let (s, n) := x.1.booked p (clk + x.2.1 + x.2.2)
    (s.put p, x.2.1 + n, x.2.2 + 1)) (s.modCm c (·.carry id seq (bytes.drop (256 * ps.length))), 0, 0)
  s.modCm c (·.delay id seq late)

/-- A payload row has been read (R234, R244). -/
def sendRowsServed (s : State) (c : CoreId) (id seq : Nat) (ps : List Pkt) (head : List Byte) (addr len : Nat) : State :=
  cmChecked s c addr len fun s => s.leaveRows c id seq ps (head ++ s.cmRead c addr len)

/-- Whether a message of `len` bytes needs a PAD first (R233). -/
def SendEp.needsPad (x : SendEp) (len : Nat) : Bool := decide (x.ring - x.wcopy < 256 * recordRows len)

/-- The PAD of a message, when one is needed and CREDIT covers it (R233). -/
def State.sendPad (s : State) (src : Peer) (x : SendEp) (len : Nat) : SendEp × State :=
  if x.st = .opened ∧ x.needsPad len ∧ x.ring - x.wcopy ≤ x.credit then s.sendRecord src x 1 (x.ring - x.wcopy) 0 0 []
  else (x, s)

/-- Whether CREDIT lets a message issue (R233). -/
def SendEp.mayIssue (x : SendEp) (len : Nat) : Bool :=
  !x.needsPad len && decide (256 * recordRows len ≤ x.credit)

/-! ### Landing (R230, R231, R234, R238, R336) -/

/-- Fields of a record header. -/
def hdrKind (h : List Byte) : Nat := recFld h 0 4 / 2 ^ 30
def hdrLen (h : List Byte) : Nat := recFld h 0 4 % 2 ^ 17
def hdrTag (h : List Byte) : Nat := recFld h 4 2
def hdrSeq (h : List Byte) : Nat := recFld h 16 8

/-- The delivery response for a message at a receive endpoint (R234). -/
def deliveryResponse (s : State) (h : Home) (e : Nat) (status reason seq : Nat) (epoch : Bool) : State :=
  let r := s.recvEp h e
  s.send { toPeer (h.peer e r.inc) r.peer .resp with
    epoch, arg := fw 63 60 status ||| fw 59 56 reason ||| fw 34 0 seq }

/-- The package's emit endpoint (R364): its records are answered when the host port has read them. -/
def State.isEmit (s : State) (h : Home) (e : Nat) : Bool :=
  match h with
  | .core c => bit s.hp.ringCfg 36 && fld s.hp.ringCfg 49 42 == c.toNat && fld s.hp.ringCfg 41 37 == e
  | .port => false

/-- The package's admission endpoint (R364). -/
def State.isAdmission (s : State) (h : Home) (e : Nat) : Bool :=
  match h with
  | .core c => bit s.hp.ringCfg 50 && fld s.hp.ringCfg 63 56 == c.toNat && fld s.hp.ringCfg 55 51 == e
  | .port => false

/-- The start signal of the host port to tollgate START_TG, which follows the move of WPTR past a STEP record (R365). -/
def State.signalStart (s : State) (wgen : Nat) : State :=
  { s with tgs := vmod s.tgs (fld s.hp.admCfg 63 56) fun t => { t with admOk := true, admWgen := BitVec.ofNat 16 wgen } }

/-- WPTR moves past every complete record at it, in order of placement; a message draws its delivery response, a PAD is
counted (R230, R234, R252); a STEP record starts its micro-batch (R365). `n` bounds the records. -/
def advance : Nat → Home → Nat → State → State
  | 0, _, _, s => s
  | n + 1, h, e, s =>
    let r := s.recvEp h e
    let row := r.wptr / 256
    if !r.landed.any (fun x => x.1 == row) then s
    else
      let hd := s.ringRead h (r.base + r.wptr) 32
      let kind := hdrKind hd
      let rows := if kind = 1 then 1 else recordRows (hdrLen hd)
      if !(List.range rows).all (fun k => r.landed.any fun x => x.1 == row + k) then s
      else
        let epoch := match r.landed.find? (fun x => x.1 == row + rows - 1) with
          | some x => x.2
          | none => false
        let n' := if kind = 1 then hdrLen hd else 256 * rows
        let s := s.modRecv h e fun r => { r with
          wptr := (r.wptr + n') % r.z
          landed := r.landed.filter fun x => !(decide (row ≤ x.1 ∧ x.1 < row + rows)) }
        let s := match h, kind with
          | .core c, 1 => s.modCq c fun q => { q with ringStat := satAdd q.ringStat 63 32 1 }
          | _, _ => s
        let s := if kind = 0 && !s.isEmit h e then deliveryResponse s h e 0 0 (hdrSeq hd) epoch else s
        let s := if kind = 0 && hdrTag hd == 3 && s.isAdmission h e then s.signalStart (recFld (s.ringRead h (r.base + r.wptr + 32) 2) 0 2) else s
        advance n h e s

/-- A row is written into a ring and its endpoint's pointers follow (R230, R231). -/
def landRow (s : State) (h : Home) (e : Nat) (p : Pkt) (addr : Nat) : State :=
  let s := s.ringWrite h addr p.body
  if (s.recvEp h e).inc = p.dstInc ∧ (s.recvEp h e).st ≠ .closed then
    let s := s.modRecv h e fun r => { r with landed := (fld p.arg 63 52, p.epoch) :: r.landed }
    advance ((s.recvEp h e).landed.length) h e s
  else if p.expectsResp then s.send (p.reply 0 0 0)
  else s

/-- A row that its target refuses: counted, but at a fused-off core (R19), and answered once, with its record's last row (R234, R238). -/
def refuseRow (s : State) (h : Home) (p : Pkt) (status reason : Nat) : State :=
  if !bit p.arg 51 then s
  else
    let s := match h with
      | .core c => if s.fusedOff c then s else s.modCq c fun q => { q with ringStat := satAdd q.ringStat 31 0 1 }
      | .port => s
    if p.expectsResp then s.send (p.reply status reason 0) else s

/-- The unit that a channel packet names (R363, R339). -/
def Home.of (p : Pkt) : Home := if p.dsad then .port else .core p.dstUnit

/-- Whether a row for an endpoint goes through the core's async port (R231). -/
def viaAsync (s : State) (h : Home) (e : Nat) : Bool :=
  match h with
  | .core c => let r := s.recvEp h e; touchesAsync (s.core c) r.base r.z
  | .port => false

/-- A row that the network delivers asks for its bank in the present a-cycle, and lands when it is served (R156, R231). -/
def CoreSt.postRow (k : CoreSt) (e : Nat) (p : Pkt) (addr : Nat) : CoreSt :=
  k.post [{ code := 13, seq := 0, write := true, rows := [addr / 256], at_ := k.sq.clk, move := .ringRow e p addr }]

/-- Whether a row for an endpoint meets a full async buffer (R162). -/
def bufferFull (s : State) (h : Home) (e : Nat) : Bool :=
  match h with
  | .core c => viaAsync s h e && decide (16 ≤ (s.core c).cm.asyncBuf.length)
  | .port => false

/-- A row for a ring goes to its bank, through the async port of a core when the ring lies there (R231). -/
def deliverRow (s : State) (h : Home) (e : Nat) (p : Pkt) (addr : Nat) : State :=
  match h with
  | .core c =>
    if viaAsync s h e then s.modCm c fun m => { m with asyncBuf := m.asyncBuf ++ [.message p addr] }
    else s.modCore c (·.postRow e p addr)
  | .port => landRow s h e p addr

/-- MESSAGE_ROW_ARRIVAL (R230, R231, R238). While the async buffer is full the network holds the row (R162). -/
def messageRow (p : Pkt) (s : State) : State :=
  let h := Home.of p
  let e := p.dstEp.toNat
  let r := s.recvEp h e
  let status : Nat := match h with
    | .core c => if s.fusedOff c then 4 else if s.fencing h then 2 else if r.st = .closed ∨ r.inc ≠ p.dstInc then 3 else 0
    | .port => if s.fencing h then 2 else if r.st = .closed ∨ r.inc ≠ p.dstInc then 3 else 0
  if p.kind ≠ .chRow ∨ (status = 0 ∧ bufferFull s h e) then s
  else arrive s p fun s =>
    if status ≠ 0 then refuseRow s h p status (if status = 4 then 1 else if status = 2 then 7 else 0)
    else
      deliverRow s h e p (r.base + 256 * fld p.arg 63 52)

def execMessageRowArrival (p : Pkt) (s : State) : Res := live s (.next (messageRow p s))

/-! ### Completions (R234, R239, R240) -/

/-- Code of CQ_SEP.LAST for a RESP status (R252, R330). -/
def lastCode (status : Nat) : BitVec 3 :=
  match status with
  | 0 => 1
  | 1 => 2
  | 2 => 3
  | 3 => 4
  | _ => 5

/-- GONE and RESET counts of a core (R252). -/
def State.countRefused (s : State) (c : CoreId) (status : Nat) : State :=
  s.modCq c fun q => { q with
    sendRefused := if status = 3 then satAdd q.sendRefused 63 32 1
                   else if status = 2 then satAdd q.sendRefused 31 0 1 else q.sendRefused }

/-- A core fault for an ENDPOINT_GONE or PEER_RESET completion, unless it is reported as status only (R239, R247). -/
def State.goneFault (s : State) (c : CoreId) (status idx : Nat) (statusOnly : Bool) (bundle : BitVec 13) : State :=
  let s := s.countRefused c status
  if statusOnly then s
  else if status = 3 then s.cqRaise c 0x0607 0 idx bundle
  else if status = 2 then s.cqRaise c 0x0608 0 idx bundle
  else s

/-- HP_EMIT_FORMAT (R364, R372): the core faults, HP_FAULT names it. -/
def emitFormatFault (s : State) (c : CoreId) (bundle : BitVec 13) : State :=
  let w := fw 63 48 0x0903 ||| fw 47 40 c.toNat ||| fw 32 32 1 ||| fw 31 0 s.now.toNat
  ({ s with hp := { s.hp with fault := firstFault s.hp.fault w } } : State).raise c 0x0903 7 bundle.toNat

/-- A message completes with a RESP status: DONE and LAST, and for ENDPOINT_GONE and PEER_RESET the endpoint breaks
(R234, R239). -/
def messageDone (s : State) (h : Home) (e : Nat) (status seq : Nat) : State :=
  let x := s.sendEp h e
  let f := x.flights.find? fun f => f.1 % 2 ^ 35 == seq
  let bundle := match f with
    | some f => f.2
    | none => 0
  let s := s.modSend h e fun x => { x with
    done := x.done + 1, last := lastCode status
    flights := match f with
      | some f => x.flights.erase f
      | none => x.flights }
  let s := if status = 2 ∨ status = 3 then s.modSend h e fun x => x.leave .broken else s
  match h with
  | .port => s
  | .core c =>
    if status = 4 then emitFormatFault s c bundle
    else if status = 2 ∨ status = 3 then s.goneFault c status e x.statusOnly bundle
    else s

/-- A credit return for an endpoint (R233, R240). -/
def creditIn (s : State) (h : Home) (e : Nat) (inc : BitVec 16) (n : Nat) : State :=
  let x := s.sendEp h e
  if x.st = .opened ∧ x.inc = inc then s.modSend h e fun x => { x with credit := x.credit + n } else s.stale

/-- A close notice for an endpoint (R227, R239). -/
def closeIn (s : State) (h : Home) (e : Nat) (inc : BitVec 16) : State :=
  let x := s.sendEp h e
  if x.st = .opened ∧ x.inc = inc then s.modSend h e fun x => x.leave .broken else s.stale

/-! ### Freeing and reading records (R227, R235, R236) -/

/-- A credit return for freed bytes (R233). -/
def sendCredit (s : State) (h : Home) (e n : Nat) : State :=
  let r := s.recvEp h e
  if n = 0 ∨ r.st ≠ .opened then s
  else s.send { toPeer (h.peer e r.inc) r.peer .credit with arg := fw 63 43 n }

/-- RPTR moves to `ptr`, `n` bytes are credited, and a freed CLOSE record makes the endpoint LISTENING with a new
incarnation (R227). -/
def freeTo (s : State) (h : Home) (e ptr n : Nat) (close : Bool) : State :=
  let s := sendCredit (s.modRecv h e fun r => { r with rptr := ptr }) h e n
  if close then listen (s.modRecv h e fun r => { r with inc := r.inc + 1 }) h e else s

/-- The header of the record at a ring offset. -/
def State.headAt (s : State) (h : Home) (e off : Nat) : List Byte := s.ringRead h ((s.recvEp h e).base + off) 32

/-- Bytes of a record from its header. -/
def hdrBytes (hd : List Byte) : Nat := if hdrKind hd = 1 then hdrLen hd else 256 * recordRows (hdrLen hd)

/-- The record at RPTR is freed, with the message behind it when it is a PAD (R236). -/
def freeHead (s : State) (h : Home) (e : Nat) : State :=
  let r := s.recvEp h e
  if r.rptr = r.wptr then s
  else
    let hd := s.headAt h e r.rptr
    let n := hdrBytes hd
    let free (hd : List Byte) (at_ skip : Nat) : State :=
      let close := hdrKind hd == 2
      freeTo s h e ((at_ + hdrBytes hd) % r.z) (skip + if close then 0 else hdrBytes hd) close
    if hdrKind hd = 1 ∧ r.wptr ≠ 0 then free (s.headAt h e 0) 0 n else free hd r.rptr 0

/-- The summary of a record (R235). -/
def summary (hd : List Byte) : Word :=
  fw 63 63 1 ||| fw 62 61 (hdrKind hd) ||| fw 59 43 (hdrLen hd) ||| fw 42 27 (hdrTag hd) ||| fw 26 0 (hdrSeq hd)

/-- CH.READ in a-cycle `t` (R235): its first ring row is read in the next one. -/
def readAsks (ep : Nat) (bits : BitVec 56) (dst : Nat) (bundle : BitVec 13) (t : Nat) : List MemAsk :=
  [{ code := 12, seq := 0, rows := [], at_ := t + 1, stamps := [.reg (BitVec.ofNat 7 (fld bits 31 27)) (t + 3)]
     move := .ringHead ep bits dst bundle false }]

/-- The ring row that a CH.READ asks for is that of RPTR in the a-cycle in which it asks (R235). -/
def CoreSt.aimRings (k : CoreSt) : CoreSt :=
  let aim (a : MemAsk) : MemAsk := match a.move with
    | .ringHead ep _ _ _ pad =>
      let r := vget k.cq.recv ep
      if a.at_ ≤ k.sq.clk then { a with rows := [(r.base + if pad then 0 else r.rptr) / 256] } else a
    | _ => a
  { k with cm := { k.cm with asks := k.cm.asks.map aim } }

/-- What follows the first row of a record (R235), read in a-cycle `t`: its further ring rows, the rows of the copy, and the freeing of
the record. -/
def readFollows (ep : Nat) (bits : BitVec 56) (dst base off z len t : Nat) (row : List Byte) (close : Bool) : List MemAsk :=
  let rows := recordRows len
  let ring := (List.range (rows - 1)).map fun i =>
    { code := 12, seq := 4 + 2 * (i + 1), rows := [(base + off) / 256 + i + 1], at_ := t + i + 1
      move := .ringRead (i + 1) (base + off + 256 * (i + 1)) }
  let copies : List MemAsk := if !bit bits 26 then []
    else (List.range ((len + 255) / 256)).map fun j =>
      let m := min (j + 1) (rows - 1)
      { code := 12, seq := 5 + 2 * m, src := some (4 + 2 * m), write := true, rows := [dst / 256 + j], at_ := t + 2 + j
        move := .copyRow j (dst + 256 * j) (min 256 (ceilTo len 32 - 256 * j)) (if j = 0 then row.drop 32 else []) }
  let free : List MemAsk := if !bit bits 25 then []
    else [{ code := 12, seq := 4 + 2 * rows, src := some (4 + 2 * (rows - 1)), rows := [], at_ := t + rows
            move := .freeRecord ep ((off + 256 * rows) % z) (if close then 0 else 256 * rows) close }]
  ring ++ copies ++ free

/-- The first ring row of a CH.READ, or that behind a PAD, has been read (R235): an empty ring gives a summary of 0, a PAD is skipped, a
copy that would leave its destination range faults, and else the summary is written and the rest of the record follows. -/
def ringHeadServed (s : State) (c : CoreId) (a : MemAsk) (ep : Nat) (bits : BitVec 56) (dst : Nat) (bundle : BitVec 13) (pad : Bool) :
    State :=
  let h := Home.core c
  let k := s.core c
  let t := k.sq.clk
  let r := s.recvEp h ep
  let off := if pad then 0 else r.rptr
  let give (s : State) (v : Word) : State := a.stamps.foldl (fun s x => match x with
    | .reg n t => s.modSq c fun q => q.takeLate n.toNat t v
    | _ => s) s
  if off = r.wptr then give s 0
  else cmChecked s c (r.base + off) 256 fun s =>
    let row := s.cmRead c (r.base + off) 256
    let len := hdrLen row
    let copied := 256 * ((len + 255) / 256)
    if !pad && hdrKind row == 1 then
      (s.modCore c fun k => a.stamps.foldl CoreSt.stampLater k).modCore c fun k => k.postAs a.id [
        { code := 12, seq := 1, rows := [], at_ := t + 1, move := .freePad ep len },
        { code := 12, seq := 2, rows := [], at_ := t + 1, stamps := a.stamps.map Stamp.later, move := .ringHead ep bits dst bundle true }]
    else if bit bits 26 && len != 0 && (decide (cmBytes < dst + copied) || touchesAsync k dst copied) then s.cqRaise c 0x0605 0 ep bundle
    else (give s (summary row)).modCore c fun k =>
      k.postAs a.id (readFollows ep bits dst r.base off r.z len t row (hdrKind row == 2))

/-- A further ring row goes into the rows of the copy that hold its bytes (R235). -/
def Cm.spread (m : Cm) (id j : Nat) (row : List Byte) : Cm :=
  { m with asks := m.asks.map fun a => if a.id != id then a else match a.move with
    | .copyRow i addr len data =>
      if i = j then { a with move := .copyRow i addr len (data ++ row.drop 32) }
      else if i + 1 = j then { a with move := .copyRow i addr len (data ++ row.take 32) } else a
    | _ => a }

/-- What a served access of the CQ unit for a channel does (R231, R234, R235). -/
def channelServed (s : State) (c : CoreId) (a : MemAsk) : State :=
  let h := Home.core c
  match a.move with
  | .sendRows ps head addr len => sendRowsServed s c a.id a.seq ps head addr len
  | .ringHead ep bits dst bundle pad => ringHeadServed s c a ep bits dst bundle pad
  | .freePad ep n => sendCredit (s.modRecv h ep fun r => { r with rptr := 0 }) h ep n
  | .ringRead j addr => cmChecked s c addr 256 fun s => s.modCm c fun m => m.spread a.id j (s.cmRead c addr 256)
  | .copyRow _ addr len data => s.ringWrite h addr (data.take len)
  | .freeRecord ep ptr n close => freeTo s h ep ptr n close
  | .ringRow ep p addr => landRow s h ep p addr
  | _ => s

/-! ### Register words of endpoints (R252) -/

def SendState.code : SendState → Nat
  | .closed => 0
  | .opening => 1
  | .opened => 2
  | .broken => 3

def RecvState.code : RecvState → Nat
  | .closed => 0
  | .listening => 1
  | .opened => 2

def RecvEp.occ (r : RecvEp) : Nat := (r.wptr + r.z - r.rptr) % r.z

def sepWord (x : SendEp) : Word :=
  fw 63 62 x.st.code ||| fw 61 59 x.last.toNat ||| fw 58 58 (if x.flowctl then 1 else 0)
    ||| fw 57 57 (if x.statusOnly then 1 else 0) ||| fw 56 41 x.inc.toNat ||| fw 40 20 x.credit ||| fw 19 4 x.peer.inc.toNat

def scntWord (x : SendEp) : Word := fw 63 32 x.sent.toNat ||| fw 31 0 x.done.toNat

def repWord (r : RecvEp) : Word :=
  fw 63 62 r.st.code ||| fw 61 46 r.inc.toNat ||| fw 45 38 r.mp.toNat ||| fw 37 34 r.size.toNat ||| fw 30 8 r.base

def occWord (r : RecvEp) : Word := fw 63 44 r.wptr ||| fw 43 24 r.rptr ||| fw 20 0 r.occ

/-- CQ_HEAD (R252): the record at RPTR in the summary layout, 0 for an empty ring. -/
def headWord (s : State) (c : CoreId) (e : Nat) : Word :=
  let r := s.recvEp (.core c) e
  if r.st = .closed ∨ r.rptr = r.wptr then 0 else summary (s.headAt (.core c) e r.rptr)

/-! ### Closing (R227) -/

/-- Whether a queued packet is the open of a send endpoint. -/
def isOpenOf (h : Home) (e : Nat) (x : SendEp) (p : Pkt) : Bool :=
  let me := h.peer e x.inc
  p.kind == .chOpen && p.srcUnit == me.unit && p.ssad == me.saddle && p.srcEp == me.ep && p.srcInc == me.inc

/-- An OPENING endpoint withdraws its request: on its way, or waiting at its target on this package (R227). -/
def withdraw (s : State) (h : Home) (e : Nat) : State :=
  let x := s.sendEp h e
  let s := { s with net := s.net.filter fun p => !isOpenOf h e x p }
  if x.peer.loc then
    let t := if x.peer.saddle then Home.port else Home.core x.peer.unit
    s.modRecv t x.peer.ep.toNat fun r => { r with
      waiting := match r.waiting with
        | some p => if isOpenOf h e x p then none else some p
        | none => none }
  else s

/-- CH.CLOSE of a send endpoint (R227). Its credit has been checked. -/
def closeSend (s : State) (h : Home) (e : Nat) : State :=
  let x := s.sendEp h e
  match x.st with
  | .opened =>
    let (x, s) := s.sendRecord (h.peer e x.inc) x 2 0 0 0 []
    s.modSend h e fun _ => x.leave .closed
  | .opening => (withdraw s h e).modSend h e fun x => x.leave .closed
  | .broken => s.modSend h e fun x => x.leave .closed
  | .closed => s

/-- CH.CLOSE of a receive endpoint (R227). -/
def closeRecv (s : State) (h : Home) (e : Nat) : State :=
  let r := s.recvEp h e
  let s := if r.st = .opened then s.send { toPeer (h.peer e r.inc) r.peer .resp with arg := fw 63 60 5 } else s
  if r.st = .closed then s
  else s.modRecv h e fun r => { r with st := .closed, inc := r.inc + 1, wptr := 0, rptr := 0, landed := [], peer := {} }

/-- A peer-reset notice arrives (R380): a CLOSE record is placed behind the records of the channel. -/
def peerResetNotice (p : Pkt) (s : State) : State :=
  let h := Home.of p
  let e := p.dstEp.toNat
  if p.kind ≠ .peerReset ∨ bufferFull s h e ∨ s.net.any (fun q => q.kind == .chRow && q.srcUnit == p.srcUnit && q.ssad == p.ssad
      && q.dstUnit == p.dstUnit && q.dsad == p.dsad && q.dstEp == p.dstEp) then s
  else arrive s p fun s =>
    let r := s.recvEp h e
    if r.st ≠ .opened ∨ r.inc ≠ p.dstInc then s
    else
      let q : Pkt := { p with kind := .chRow, arg := fw 63 52 (r.wptr / 256) ||| fw 51 51 1, word := 2 }
      let rows := fillRows [q] (header s 2 0 0 r.peer r.inc (fld p.arg 39 0) 0)
      rows.foldl (fun s q => deliverRow s h e q (r.base + r.wptr)) s

def execPeerResetNotice (p : Pkt) (s : State) : Res := live s (.next (peerResetNotice p s))

end Sys2Proof.Machine
end

