-- ==== Sys2Proof/Machine/Formats.lean ====
section
/-! DEFINITION. The element formats of chapter 2: encodings, exact values and their arithmetic, packing in memory. -/

namespace Sys2Proof.Machine

/-- An exact value: NaN, an infinity, or ±m × 2^e. A zero (m = 0) keeps its sign. -/
inductive Val where
  | nan
  | inf (neg : Bool)
  | fin (neg : Bool) (m : Nat) (e : Int)
deriving DecidableEq, Repr

/-- How a floating-point format treats its top exponent (R31, R32): IEEE infinities and NaNs, the single NaN of E4M3,
or no special value. -/
inductive Special where
  | ieee | e4m3 | none
deriving DecidableEq, Repr

/-- A floating-point format: exponent and fraction bits, bias, special values. -/
structure FloatFmt where
  eb : Nat
  mb : Nat
  bias : Nat
  special : Special
deriving DecidableEq, Repr

/-- Format codes of R30 that name an element. -/
inductive Fmt where
  | float (f : FloatFmt)
  | int (bits : Nat)
  | wide
deriving DecidableEq, Repr

def fp32 : FloatFmt := ⟨8, 23, 127, .ieee⟩
def bf16 : FloatFmt := ⟨8, 7, 127, .ieee⟩
def fp16 : FloatFmt := ⟨5, 10, 15, .ieee⟩
def e4m3 : FloatFmt := ⟨4, 3, 7, .e4m3⟩
def e5m2 : FloatFmt := ⟨5, 2, 15, .ieee⟩
def e3m2 : FloatFmt := ⟨3, 2, 3, .none⟩
def e2m3 : FloatFmt := ⟨2, 3, 1, .none⟩
def e2m1 : FloatFmt := ⟨2, 1, 1, .none⟩

/-- The element format of a 4-bit format code (R30). E8M0 and the reserved codes name no element. -/
def fmtOf : Nat → Option Fmt
  | 0 => some (.float fp32)
  | 1 => some (.float bf16)
  | 2 => some (.float fp16)
  | 3 => some (.float e4m3)
  | 4 => some (.float e5m2)
  | 5 => some (.float e3m2)
  | 6 => some (.float e2m3)
  | 7 => some (.float e2m1)
  | 8 => some (.int 8)
  | 9 => some (.int 32)
  | 10 => some .wide
  | _ => none

/-- Width in bits of a format's element (R30). -/
def Fmt.width : Fmt → Nat
  | .float f => 1 + f.eb + f.mb
  | .int b => b
  | .wide => 128

/-- The exact value of a floating-point code (R31, R32). -/
def FloatFmt.decode (f : FloatFmt) (x : Nat) : Val :=
  let m := x % 2 ^ f.mb
  let e := x / 2 ^ f.mb % 2 ^ f.eb
  let neg := x / 2 ^ (f.mb + f.eb) % 2 == 1
  let top := e == 2 ^ f.eb - 1
  if f.special = .ieee ∧ top then (if m = 0 then .inf neg else .nan)
  else if f.special = .e4m3 ∧ top ∧ m = 7 then .nan
  else if e = 0 then .fin neg m (1 - (f.bias : Int) - f.mb)
  else .fin neg (m + 2 ^ f.mb) ((e : Int) - f.bias - f.mb)

/-- The exact value of an element code of n bits two's complement (R34). -/
def intVal (bits x : Nat) : Val :=
  let v := x % 2 ^ bits
  if v < 2 ^ (bits - 1) then .fin false v 0 else .fin true (2 ^ bits - v) 0

def Fmt.decode : Fmt → Nat → Val
  | .float f, x => f.decode x
  | .int b, x => intVal b x
  | .wide, _ => .nan

/-- The largest finite code of a format, without its sign (R32). -/
def FloatFmt.maxCode (f : FloatFmt) : Nat :=
  match f.special with
  | .ieee => (2 ^ f.eb - 1) * 2 ^ f.mb - 1
  | .e4m3 => 2 ^ (f.eb + f.mb) - 2
  | .none => 2 ^ (f.eb + f.mb) - 1

/-- The canonical NaN of a format (R50). -/
def FloatFmt.nanCode (f : FloatFmt) : Nat :=
  match f.special with
  | .ieee => (2 ^ f.eb - 1) * 2 ^ f.mb + 2 ^ (f.mb - 1)
  | .e4m3 => 0x7F
  | .none => 0

def FloatFmt.signBit (f : FloatFmt) (neg : Bool) : Nat := if neg then 2 ^ (f.eb + f.mb) else 0

def FloatFmt.infCode (f : FloatFmt) (neg : Bool) : Nat := f.signBit neg + (2 ^ f.eb - 1) * 2 ^ f.mb

/-! ### Exact arithmetic -/

/-- m × 2^e on the grid 2^g, for g ≤ e. -/
def atGrid (neg : Bool) (m : Nat) (e g : Int) : Int :=
  let v : Int := m * 2 ^ (e - g).toNat
  if neg then -v else v

/-- The value z × 2^g of an integer, with the sign of an exact zero given. -/
def ofGrid (z : Int) (g : Int) (zeroNeg : Bool) : Val :=
  if z = 0 then .fin zeroNeg 0 0 else .fin (z < 0) z.natAbs g

/-- The value scaled by 2^k. -/
def Val.scale (k : Int) : Val → Val
  | .fin n m e => .fin n m (e + k)
  | v => v

def Val.neg : Val → Val
  | .nan => .nan
  | .inf n => .inf (!n)
  | .fin n m e => .fin (!n) m e

/-- IEEE 754 sum before rounding (R51, R98): an exact zero is −0 only when both terms are −0. -/
def Val.add : Val → Val → Val
  | .nan, _ => .nan
  | _, .nan => .nan
  | .inf a, .inf b => if a = b then .inf a else .nan
  | .inf a, .fin _ _ _ => .inf a
  | .fin _ _ _, .inf b => .inf b
  | .fin a m e, .fin b n f =>
    let g := min e f
    ofGrid (atGrid a m e g + atGrid b n f g) g (a && b && m == 0 && n == 0)

/-- IEEE 754 product before rounding (R51): zeros and infinities carry the exclusive-or of the signs. -/
def Val.mul : Val → Val → Val
  | .nan, _ => .nan
  | _, .nan => .nan
  | .inf a, .inf b => .inf (a != b)
  | .inf a, .fin b n _ => if n = 0 then .nan else .inf (a != b)
  | .fin a m _, .inf b => if m = 0 then .nan else .inf (a != b)
  | .fin a m e, .fin b n f => .fin (a != b) (m * n) (e + f)

/-- Order of two values that are not NaN: a < b. -/
def Val.lt : Val → Val → Bool
  | .nan, _ => false
  | _, .nan => false
  | .inf a, .inf b => a && !b
  | .inf a, .fin _ _ _ => a
  | .fin _ _ _, .inf b => !b
  | .fin a m e, .fin b n f =>
    let g := min e f
    atGrid a m e g < atGrid b n f g

def Val.isNan : Val → Bool
  | .nan => true
  | _ => false

def Val.isInf : Val → Bool
  | .inf _ => true
  | _ => false

def Val.isFin : Val → Bool
  | .fin _ _ _ => true
  | _ => false

/-! ### Packing (R33) -/

/-- Bytes and elements of the smallest whole group of packed elements of w bits. -/
def packGroup (w : Nat) : Nat × Nat := if w = 4 then (1, 2) else if w = 6 then (3, 4) else (w / 8, 1)

/-- Bytes that n packed elements of w bits take. -/
def packedBytes (w n : Nat) : Nat := n * w / 8

/-- The first `k` elements of a group, as codes. -/
def groupCodes (w : Nat) (bs : List Byte) (k : Nat) : List Nat :=
  let v := ofLe bs
  (List.range k).map fun i => v / 2 ^ (w * i) % 2 ^ w

/-- The codes of n packed elements of w bits (R33). -/
def unpack (w : Nat) (bs : List Byte) : Nat → List Nat
  | 0 => []
  | n + 1 =>
    let (gb, ge) := packGroup w
    (List.range ((n + ge) / ge)).flatMap fun g =>
      groupCodes w ((bs.drop (g * gb)).take gb) (min ge (n + 1 - g * ge))

/-- Codes packed into bytes (R33). -/
def pack (w : Nat) (codes : List Nat) : List Byte :=
  let (gb, ge) := packGroup w
  (List.range ((codes.length + ge - 1) / ge)).flatMap fun g =>
    leBytes gb ((List.range ge).foldl (fun a i => a + codes.getD (g * ge + i) 0 % 2 ^ w * 2 ^ (w * i)) 0)

end Sys2Proof.Machine
end

