-- ==== Sys2Proof/Machine/Flags.lean ====
section
/-! DEFINITION. Rounding, conversion and the flags that conversions and lane arithmetic set (R36, R41 to R50, R98, R109,
R469). -/

namespace Sys2Proof.Machine

/-- Rounding mode, SAT bit and the 16-bit random value of SR (R48, R49). -/
structure Rounding where
  mode : Nat := 0
  sat : Bool := false
  r : Nat := 0
deriving DecidableEq, Repr

/-- The outcome of one conversion: the code, and what it sets in VE_STATUS (INVALID, OVERFLOW: R469) and in
VE_DRAIN_STATUS (SAT_APPLIED, NAN_OUT, INF_OUT: R109). -/
structure Conv where
  code : Nat
  invalid : Bool := false
  overflow : Bool := false
  satApplied : Bool := false
  nanOut : Bool := false
  infOut : Bool := false
deriving DecidableEq, Repr

/-- floor(log2 m) for m > 0. -/
def msb (m : Nat) : Nat := Nat.log2 m

/-- Round the magnitude m × 2^e of a value with the given sign to a multiple k of 2^q (R48, R49). -/
def roundMag (rd : Rounding) (neg : Bool) (m : Nat) (e q : Int) : Nat :=
  if q ≤ e then m * 2 ^ (e - q).toNat
  else
    let d := 2 ^ (q - e).toNat
    let k := m / d
    let rem := m % d
    if rem = 0 then k
    else
      let up : Bool :=
        match rd.mode with
        | 0 => d < 2 * rem || (d == 2 * rem && k % 2 == 1)
        | 1 => false
        | 2 => neg
        | 3 => !neg
        | _ =>
          -- f is the fraction of the way from lo to hi; for a negative value lo has the larger magnitude (R49)
          if neg then !(decide (2 ^ 16 ≤ (d - rem) * 2 ^ 16 / d + rd.r)) else decide (2 ^ 16 ≤ rem * 2 ^ 16 / d + rd.r)
      if up then k + 1 else k

/-- Exponent of the spacing of a format's values around m × 2^e (m > 0), not below its subnormal grid. In SR the
spacing of the top binade continues beyond the largest value (R50). -/
def FloatFmt.ulp (f : FloatFmt) (rd : Rounding) (m : Nat) (e : Int) : Int :=
  let q := max (e + (msb m : Int) - f.mb) (1 - (f.bias : Int) - f.mb)
  let topExp : Int := (f.maxCode / 2 ^ f.mb : Nat)
  if rd.mode = 4 then min q (topExp - f.bias - f.mb) else q

/-- The magnitude code of k × 2^q in a format: `none` when it lies beyond the largest finite value. -/
def FloatFmt.encodeMag (f : FloatFmt) (k : Nat) (q : Int) : Option Nat :=
  let (k, q) := if 2 ^ (f.mb + 1) ≤ k then (k / 2 ^ (msb k - f.mb), q + (msb k : Int) - f.mb) else (k, q)
  let code := if k < 2 ^ f.mb then k else ((q + f.mb + f.bias).toNat - 1) * 2 ^ f.mb + k
  if code ≤ f.maxCode then some code else none

/-- Overflow of a finite value, or an infinity, in a floating-point output (R50, R102). -/
def FloatFmt.overflow (f : FloatFmt) (rd : Rounding) (neg finite : Bool) : Conv :=
  let max := f.signBit neg + f.maxCode
  let toInf := !finite || rd.mode == 0 || rd.mode == 4 || (rd.mode == 2 && neg) || (rd.mode == 3 && !neg)
  if !toInf then { code := max, overflow := finite, satApplied := rd.sat || f.special == .none }
  else if rd.sat || f.special == .none then { code := max, overflow := finite, satApplied := true }
  else if f.special == .e4m3 then { code := f.nanCode, invalid := true, overflow := finite, nanOut := true }
  else { code := f.infCode neg, overflow := finite, infOut := true }

/-- Conversion of an exact value to a floating-point format (R48 to R50, R102). -/
def FloatFmt.convert (f : FloatFmt) (rd : Rounding) : Val → Conv
  | .nan => if f.special = .none then { code := 0, invalid := true } else { code := f.nanCode, nanOut := true }
  | .inf neg => f.overflow rd neg false
  | .fin neg m e =>
    if m = 0 then { code := f.signBit neg }
    else
      let q := f.ulp rd m e
      match f.encodeMag (roundMag rd neg m e q) q with
      | some c => { code := f.signBit neg + c }
      | none => f.overflow rd neg true

/-- Conversion of an exact value to an integer format (R48, R50). -/
def intConvert (bits : Nat) (rd : Rounding) : Val → Conv
  | .nan => { code := 0, invalid := true }
  | .inf neg =>
    { code := if neg then 2 ^ (bits - 1) else 2 ^ (bits - 1) - 1, invalid := true, satApplied := true }
  | .fin neg m e =>
    let k := roundMag rd neg m e 0
    if neg then
      if k ≤ 2 ^ (bits - 1) then { code := (2 ^ bits - k) % 2 ^ bits }
      else { code := 2 ^ (bits - 1), overflow := true, satApplied := true }
    else
      if k < 2 ^ (bits - 1) then { code := k }
      else { code := 2 ^ (bits - 1) - 1, overflow := true, satApplied := true }

def Fmt.convert : Fmt → Rounding → Val → Conv
  | .float f, rd, v => f.convert rd v
  | .int b, rd, v => intConvert b rd v
  | .wide, _, _ => { code := 0 }

/-- The FP32 code of an exact value in RNE (R98). -/
def toF32 (v : Val) : Nat := (fp32.convert {} v).code

/-- The exact value of an FP32 code. -/
def f32 (x : Nat) : Val := fp32.decode x

/-! ### WIDE112 containers (R39 to R45) -/

/-- The flags of a container, in [127:124]. -/
def wNan (c : BitVec 128) : Bool := c.getLsbD 127
def wPos (c : BitVec 128) : Bool := c.getLsbD 126
def wNeg (c : BitVec 128) : Bool := c.getLsbD 125
def wHigh (c : BitVec 128) : Bool := c.getLsbD 124

/-- W of a container as an integer. -/
def wInt (c : BitVec 128) : Int := (c.extractLsb' 0 112).toInt

/-- A container of an integer, modulo 2^112, and the flags NAN, POS_INF, NEG_INF, PRODUCT_HIGH. -/
def mkWide (w : Int) (nan pos neg high : Bool) : BitVec 128 :=
  let f := (if nan then 8 else 0) + (if pos then 4 else 0) + (if neg then 2 else 0) + (if high then 1 else 0)
  BitVec.ofNat 128 (f * 2 ^ 124 + (w % 2 ^ 112).toNat)

/-- The sum of two containers at one anchor: W modulo 2^112, flags by OR (R43). -/
def wideAdd (a b : BitVec 128) : BitVec 128 :=
  mkWide (wInt a + wInt b) (wNan a || wNan b) (wPos a || wPos b) (wNeg a || wNeg b) (wHigh a || wHigh b)

/-- floor of ±m × 2^e. -/
def floorVal (neg : Bool) (m : Nat) (e : Int) : Int :=
  if 0 ≤ e then atGrid neg m e 0
  else
    let d : Int := 2 ^ (-e).toNat
    (if neg then -(m : Int) else (m : Int)) / d

/-- What one product or input adds at an anchor (R38, R41, R42), as a container, with whether flooring lost bits and
whether it set a flag. -/
structure Contrib where
  c : BitVec 128
  lost : Bool := false
  flagged : Bool := false
deriving DecidableEq, Repr

def contribOf (anchor : Int) : Val → Contrib
  | .nan => { c := mkWide 0 true false false false, flagged := true }
  | .inf neg => { c := mkWide 0 false (!neg) neg false, flagged := true }
  | .fin neg m e =>
    let sh := e - anchor
    -- |p| ≥ 2^(A + 87)
    let big : Bool := if 0 ≤ sh then decide (2 ^ 87 ≤ m * 2 ^ sh.toNat) else decide (2 ^ (87 + (-sh).toNat) ≤ m)
    if big then { c := mkWide (if neg then -(2 ^ 87 - 1) else 2 ^ 87 - 1) false false false true, flagged := true }
    else
      let w := floorVal neg m sh
      { c := mkWide w false false false false,
        lost := if 0 ≤ sh then false else m % 2 ^ (-sh).toNat != 0 }

/-- The exact value of a container at an anchor, as DRAIN reads it (R50). -/
def wideVal (anchor : Int) (c : BitVec 128) : Val :=
  if wNan c || (wPos c && wNeg c) then .nan
  else if wPos c then .inf false
  else if wNeg c then .inf true
  else
    let w := wInt c
    .fin (w < 0) w.natAbs anchor

/-- Conversion of a container at an anchor to a rounded format (R50, R104, R107), with the INVALID of a NaN that no
input NaN caused (R469). -/
def wideConvert (f : Fmt) (rd : Rounding) (anchor : Int) (c : BitVec 128) : Conv :=
  let r := f.convert rd (wideVal anchor c)
  if wPos c && wNeg c && !wNan c then
    match f with
    | .int _ => { r with invalid := false }
    | _ => { r with invalid := true }
  else r

/-- Change of anchor (R45). -/
def wideRebase (a a' : Int) (c : BitVec 128) : BitVec 128 :=
  let w := wInt c
  if a ≤ a' then mkWide (w / 2 ^ (a' - a).toNat) (wNan c) (wPos c) (wNeg c) (wHigh c)
  else
    let v := w * 2 ^ (a - a').toNat
    if 2 ^ 111 ≤ v then mkWide (2 ^ 111 - 1) (wNan c) (wPos c) (wNeg c) true
    else if v < -(2 ^ 111) then mkWide (-(2 ^ 111 - 1)) (wNan c) (wPos c) (wNeg c) true
    else mkWide v (wNan c) (wPos c) (wNeg c) (wHigh c)

/-! ### Lane arithmetic (R98) -/

/-- A lane result with the INVALID and OVERFLOW it sets: a NaN from operands that are not NaN, an infinity from
finite operands. -/
def laneResult (f : FloatFmt) (operands : List Val) (v : Val) : Conv :=
  let r := f.convert {} v
  { code := r.code,
    invalid := v.isNan && operands.all (fun o => !o.isNan),
    overflow := r.infOut && operands.all Val.isFin }

/-- VMAX and VMIN (R98): NaN if either is NaN, +0 above −0. -/
def Val.maxV (a b : Val) : Val :=
  if a.isNan || b.isNan then .nan
  else if a.lt b then b
  else if b.lt a then a
  else match a with
    | .fin true _ _ => b
    | _ => a

def Val.minV (a b : Val) : Val :=
  if a.isNan || b.isNan then .nan
  else if a.lt b then a
  else if b.lt a then b
  else match a with
    | .fin true _ _ => a
    | _ => b

/-- VCMPEQ: equal, NaN never. -/
def Val.eqV (a b : Val) : Bool := !a.isNan && !b.isNan && !(a.lt b) && !(b.lt a)

/-! ### Microscaling (R35, R36) -/

/-- Exponent of the largest normal of an MX element format (R36). -/
def emax (f : FloatFmt) : Int := (f.maxCode / 2 ^ f.mb : Nat) - (f.bias : Int)

/-- An MX block: its scale code, its element conversions. -/
def quantise (f : FloatFmt) (vs : List Val) : Nat × List Conv :=
  let mag : Val → Val := fun v => match v with
    | .fin _ m e => .fin false m e
    | .inf _ => .inf false
    | .nan => .nan
  let amax := vs.foldl (fun a v => if a.lt (mag v) then mag v else a) (.fin false 0 0)
  if vs.any Val.isNan then (0xFF, vs.map fun _ => { code := 0 })
  else
    let x : Nat := match amax with
      | .fin _ m e => if m = 0 then 0 else (min (max (e + (msb m : Int) - emax f + 127) 0) 0xFE).toNat
      | _ => 0xFE
    (x, vs.map fun v => f.convert { sat := true } (v.scale (127 - (x : Int))))

/-- v(e) × 2^(X − 127), NaN for X = 0xFF (R35). -/
def mxVal (v : Val) (x : Nat) : Val := if x = 0xFF then .nan else v.scale ((x : Int) - 127)

end Sys2Proof.Machine
end

