-- ==== Sys2Proof/Machine/Combine.lean ====
section
/-! DEFINITION. Combining queues: opening, joining, contributions, rounds, deliveries and breaking (R241 to R247). -/

namespace Sys2Proof.Machine

/-! ### Queues and their words (R242) -/

def State.queue (s : State) (q : QueueRef) : CombQueue :=
  match q with
  | .local c k => vget (s.core c).cq.queues k.toNat
  | .saddle q => vget s.saddleQ q.toNat

def State.modQ (s : State) (q : QueueRef) (f : CombQueue → CombQueue) : State :=
  match q with
  | .local c k => s.modCq c fun x => { x with queues := vmod x.queues k.toNat f }
  | .saddle q => { s with saddleQ := vmod s.saddleQ q.toNat f }

def CombQueue.mode (q : CombQueue) : Nat := fld q.word 62 61
def CombQueue.contributors (q : CombQueue) : Nat := fld q.word 60 55 + 1
def CombQueue.readerCount (q : CombQueue) : Nat := fld q.word 54 51 + 1
def CombQueue.count (q : CombQueue) : Nat := fld q.word 50 37 + 1
def CombQueue.anchor (q : CombQueue) : Int := sfld q.word 36 27
def CombQueue.milepost (q : CombQueue) : Nat := fld q.word 13 6

def queueLocal : QueueRef → Bool
  | .local .. => true
  | .saddle _ => false

/-- Byte address of a queue's region in its store. -/
def regionBase (local_ : Bool) (w : Word) : Nat := fld w 26 14 * (if local_ then 1024 else 4096)

/-- Bytes of the region of a queue word, rounded up to 256 (R242). -/
def regionBytes (w : Word) : Nat :=
  let count := fld w 50 37 + 1
  ceilTo (match fld w 62 61 with
    | 0 => 4 * count
    | 1 => 16 * count
    | _ => 4 * count * (fld w 60 55 + 1)) 256

/-- The store bytes of a queue's region. -/
def State.regionRead (s : State) (q : QueueRef) (a len : Nat) : List Byte :=
  match q with
  | .local c _ => s.cmRead c a len
  | .saddle _ => Mem.read s.sqStore a len

def State.regionWrite (s : State) (q : QueueRef) (a : Nat) (bs : List Byte) : State :=
  match q with
  | .local c _ => (clearErrs s .cm c a (a + bs.length)).cmWrite c a bs
  | .saddle _ => { s with sqStore := Mem.write s.sqStore a bs }

/-- The identity of a queue as a sender (R229). -/
def queuePeer (q : QueueRef) (inc : BitVec 16) : Peer :=
  match q with
  | .local c k => { queue := true, unit := c, ep := BitVec.ofNat 8 k.toNat, inc }
  | .saddle q => { saddle := true, queue := true, unit := 0, ep := BitVec.ofNat 8 q.toNat, inc }

/-- All queues of a home. -/
def homeQueues (q : QueueRef) : List QueueRef :=
  match q with
  | .local c _ => (List.range 4).map fun k => .local c (BitVec.ofNat 2 k)
  | .saddle _ => (List.range 64).map fun k => .saddle (BitVec.ofNat 6 k)

/-- Whether CQ.OPEN's queue word is invalid for a queue (R242). -/
def queueCfgBad (s : State) (q : QueueRef) (w : Word) : Bool :=
  let lo := regionBase (queueLocal q) w
  let hi := lo + regionBytes w
  let space := if (queueLocal q) then cmBytes else 0x2000000
  let async := match q with
    | .local c _ => touchesAsync (s.core c) lo (hi - lo)
    | .saddle _ => false
  !bit w 63 || fld w 62 61 == 3 || (s.queue q).st != .closed || decide (space < hi) || async
    || (homeQueues q).any fun o =>
        let x := s.queue o
        let l := regionBase (queueLocal q) x.word
        x.st != .closed && decide (lo < l + regionBytes x.word ∧ l < hi)

/-- CQ.OPEN (R242): the queue is FORMING, and a join that waits for it is resolved by the caller. -/
def openQueue (s : State) (q : QueueRef) (c : CoreId) (w : Word) : State :=
  s.modQ q fun x => { x with
    st := .forming, word := w, owner := c, round := 0, drop := 0, contribs := [], readers := [], rowsIn := [], early := []
    deliver := none }

/-! ### Breaking (R247) -/

/-- A contribution that has arrived is answered. -/
def answerContrib (s : State) (q : QueueRef) (p : Pkt) (status reason : Nat) : State :=
  s.send { p.reply status reason 0 with srcInc := (s.queue q).inc }

/-- A reader's channel receives a CLOSE record once its credit holds one (R227, R247). -/
def closeReader (s : State) (q : QueueRef) (r : Reader) : State :=
  if r.gone || r.ep.st != .opened then s
  else if r.ep.credit < 256 then s.modQ q fun x => { x with owed := x.owed ++ [r] }
  else (s.sendRecord (queuePeer q r.ep.inc) r.ep 2 0 0 0 []).2

/-- A FORMING or ACTIVE queue ends: each reader receives a CLOSE record, every contribution that has arrived completes with
ENDPOINT_GONE, or PEER_RESET while the home fences, and a reader's join that is under way with the same (R247). -/
def endQueue (s : State) (q : QueueRef) : State :=
  let x := s.queue q
  match x.st with
  | .forming | .active =>
    let status := match q with
      | .local c _ => if s.fencing (.core c) then 2 else 3
      | .saddle _ => 3
    let reason := if status = 2 then 7 else 0
    let s := x.readers.foldl (fun s r => closeReader s q r.2) s
    let owed := x.contribs.filterMap (fun c => c.2.req) ++ x.input.filterMap (·.req) ++ x.early.filter (fun p => bit p.arg 47)
    let s := owed.foldl (fun s p => answerContrib s q p status reason) s
    let s := (x.readers.filterMap fun r => r.2.join).foldl (fun s p => hsReply s p status reason 0 x.inc 0) s
    s.modQ q fun x => { x with contribs := [], readers := [], rowsIn := [], early := [], input := [], deliver := none }
  | _ => s

/-- The queue breaks (R221, R247). -/
def breakQueue (s : State) (q : QueueRef) : State :=
  match (s.queue q).st with
  | .forming | .active => (endQueue s q).modQ q fun x => { x with st := .broken, inc := x.inc + 1 }
  | _ => s

/-- CQ.CLOSE (R247, log entry 23): an open queue breaks; a broken one closes. -/
def closeQueue (s : State) (q : QueueRef) : State :=
  if (s.queue q).st = .broken then s.modQ q fun x => { x with st := .closed, inc := x.inc + 1 }
  else breakQueue s q

/-! ### Contributions (R244, R245) -/

/-- Bytes of one element of a contributor (R244). -/
def CombQueue.width (q : CombQueue) (cfmt : Bool) : Nat := if q.mode = 1 ∧ !cfmt then 16 else 4

def CombQueue.contribRows (q : CombQueue) (cfmt : Bool) : Nat := (q.count * q.width cfmt + 255) / 256

/-- FP32 elements converted to WIDE112 containers at an anchor (R45). -/
def toWide (anchor : Int) (codes : List Nat) : List (BitVec 128) := codes.map fun x => (contribOf anchor (f32 x)).c

/-- Elements of a region row added under the queue's mode, or written when none has been added (R43, R53, R245). -/
def addRow (mode : Nat) (old new : List Byte) : List Byte :=
  match mode with
  | 0 => (List.zipWith (fun a b => leBytes 4 (a + b)) (unpack 32 old (new.length / 4)) (unpack 32 new (new.length / 4))).flatten
  | _ => (List.zipWith (fun a b => leBytes 16 (wideAdd (BitVec.ofNat 128 a) (BitVec.ofNat 128 b)).toNat)
      (unpack 128 old (new.length / 16)) (unpack 128 new (new.length / 16))).flatten

/-- The region bytes of a contribution row, row by row with their addresses: converted for an FP32 contributor of a WIDE112 queue, in the
contributor's own part of an FP32-ordered region (R245). -/
def regionParts (q : QueueRef) (x : CombQueue) (i : Nat) (cfmt : Bool) (p : Pkt) : List (Nat × List Byte) :=
  let k := fld p.arg 57 48
  let w := x.width cfmt
  let data := p.body.take (min 256 (x.count * w - 256 * k))
  let base := regionBase (queueLocal q) x.word
  let parts : List (Nat × List Byte) := match x.mode with
    | 0 => [(base + 256 * k, data)]
    | 1 =>
      if cfmt then
        let ws : List (BitVec 128) := toWide x.anchor (unpack 32 data (data.length / 4))
        (List.range 4).map fun j =>
          (base + 256 * (4 * k + j), ((ws.drop (16 * j)).take 16).flatMap fun (v : BitVec 128) => leBytes 16 v.toNat)
      else [(base + 256 * k, data)]
    | _ =>
      let a := base + i * 4 * x.count + 256 * k
      (rowPieces 3 a data.length).map fun (b, n) => (b, slice data (b - a) n)
  parts.filter fun x => !x.2.isEmpty

/-- Bytes of a region row are added, or written when none has been in this round (R245). -/
def regionAdd (s : State) (q : QueueRef) (a : Nat) (bytes : List Byte) : State :=
  let x := s.queue q
  let row := a / 256
  let data := if x.mode != 2 && x.rowsIn.contains row then addRow x.mode (s.regionRead q a bytes.length) bytes else bytes
  (s.regionWrite q a data).modQ q fun x => { x with rowsIn := if x.rowsIn.contains row then x.rowsIn else row :: x.rowsIn }

/-- A contribution row has been combined. -/
def CombQueue.took (x : CombQueue) (i : Nat) (req : Option Pkt) : CombQueue :=
  { x with contribs := x.contribs.map fun (j, c) =>
      if j = i then (j, { c with
        landed := c.landed + 1
        complete := decide (x.contribRows c.cfmt ≤ c.landed + 1)
        req := if req.isSome then req else c.req })
      else (j, c) }

/-- A contribution row of an ACTIVE queue is combined; at a local queue it enters the input buffer (R245). -/
def combineRow (s : State) (q : QueueRef) (i : Nat) (cfmt : Bool) (p : Pkt) : State :=
  let req := if bit p.arg 47 then some { p with body := [] } else none
  let parts := regionParts q (s.queue q) i cfmt p
  if queueLocal q && !parts.isEmpty then s.modQ q fun x => { x with input := x.input ++ [{ who := i, req, parts }] }
  else (parts.foldl (fun s x => regionAdd s q x.1 x.2) s).modQ q (·.took i req)

/-- Queue k of a core takes the next region row of its input buffer (R156, R245): the read is made in the present a-cycle, the write two
a-cycles later. A held read keeps the next row waiting. -/
def CoreSt.queueTake (core : CoreSt) (k : Nat) : CoreSt :=
  let x := vget core.cq.queues k
  let reading (a : MemAsk) : Bool := match a.move with
    | .regionRead j .. => j == k
    | _ => false
  match x.input with
  | [] => core
  | r :: rest =>
    match r.parts with
    | [] => core
    | (a, data) :: more =>
      if core.cm.asks.any reading then core
      else
        let core := core.post [
          { code := 12, seq := 0, rows := [a / 256], at_ := core.sq.clk, move := .regionRead k a data.length },
          { code := 13, seq := 1, src := some 0, write := true, rows := [a / 256], at_ := core.sq.clk + 2
            move := .combine k x.inc a data r.who r.req more.isEmpty }]
        { core with cq := { core.cq with queues := vmod core.cq.queues k fun x =>
            { x with input := if more.isEmpty then rest else { r with parts := more } :: rest } } }

def CoreSt.queueTick (k : CoreSt) : CoreSt :=
  if k.cq.queues.toList.all (·.input.isEmpty) then k else (List.range 4).foldl CoreSt.queueTake k

/-- A region row of a local queue is written (R245). -/
def combineServed (s : State) (q : QueueRef) (inc : BitVec 16) (a : Nat) (data : List Byte) (who : Nat) (req : Option Pkt)
    (last : Bool) : State :=
  if (s.queue q).inc ≠ inc then s
  else
    let s := regionAdd s q a data
    if last then s.modQ q (·.took who req) else s

/-- The queue that a contribution or join packet names. -/
def queueOf (p : Pkt) : QueueRef :=
  if p.dsad then .saddle (BitVec.ofNat 6 p.dstEp.toNat) else .local p.dstUnit (BitVec.ofNat 2 p.dstEp.toNat)

/-- A contribution row at its queue: refused, kept while the queue forms, or combined (R238, R244, R245). -/
def contribRow (s : State) (p : Pkt) : State :=
  let q := queueOf p
  let x := s.queue q
  let (off, fence) := match q with
    | .local c _ => (s.fusedOff c, s.fencing (.core c))
    | .saddle _ => (false, s.fencing .port)
  let refuse (status reason : Nat) : State :=
    if bit p.arg 47 then
      answerContrib (s.modQ q fun x => { x with drop := if x.drop = 0x1FFFF then x.drop else x.drop + 1 }) q p status reason
    else s
  if off then (if bit p.arg 47 then s.send (p.reply 4 1 0) else s)
  else if fence then refuse 2 7
  else if x.st = .closed ∨ x.st = .broken ∨ x.inc ≠ p.dstInc then refuse 3 0
  else if x.st = .forming then s.modQ q fun x => { x with early := x.early ++ [p] }
  else match x.contribs.find? (fun c => c.1 == fld p.arg 63 58) with
    | none => refuse 3 0
    | some (i, c) => combineRow s q i c.cfmt p

/-- Rows that the input buffer of a local queue holds (R245). -/
def inputDepth : Nat := 64

/-- CONTRIBUTION_ROW_ARRIVAL. While the input buffer of a local queue is full the network holds the row (R245). -/
def contributionRow (p : Pkt) (s : State) : State :=
  let q := queueOf p
  let x := s.queue q
  if p.kind ≠ .cqRow ∨ (queueLocal q ∧ inputDepth ≤ x.early.length + x.input.length) then s
  else arrive s p fun s => contribRow s p

def execContributionRowArrival (p : Pkt) (s : State) : Res := live s (.next (contributionRow p s))

/-! ### Joining (R243) -/

/-- Largest record payload of a queue's deliveries (R243). -/
def CombQueue.maxlen (q : CombQueue) : Nat := if q.mode = 1 then min (16 * q.count) 65536 else 4 * q.count

/-- The queue becomes ACTIVE once every contributor and reader has joined; contributions that waited are taken
(R243, R244). -/
def activate (s : State) (q : QueueRef) : State :=
  let x := s.queue q
  if x.st = .forming ∧ x.contribs.length = x.contributors ∧ x.readers.length = x.readerCount
      ∧ x.readers.all (fun r => r.2.join.isNone) then
    let s := s.modQ q fun x => { x with st := .active, early := [] }
    x.early.foldl contribRow s
  else s

/-- The join is accepted: the reply carries the queue word beside R330's fields. -/
def joinAccepted (s : State) (q : QueueRef) (p : Pkt) : State :=
  activate (hsReply s p 0 0 0 (s.queue q).inc (s.queue q).word) q

/-- Whether a core may be a member of a queue (R241). -/
def memberOk (q : QueueRef) (p : Pkt) : Bool :=
  match q with
  | .local c _ => !p.fabric && quarterOf c == quarterOf p.srcUnit
  | .saddle _ => true

/-- A join of a FORMING or ACTIVE queue is resolved (R226, R243). The packet carries the join word and the milepost. -/
def resolveJoin (s : State) (q : QueueRef) (p : Pkt) : State :=
  let x := s.queue q
  let w := p.word
  let i := fld w 30 25
  let reader := bit w 31
  let mp := fld p.arg 46 39
  let refuse (reason : Nat) : State := hsReply s p 4 reason 0 x.inc 0
  let taken := if reader then x.readers.any (fun r => r.1 == i) else x.contribs.any (fun c => c.1 == i)
  if !memberOk q p || taken || decide ((if reader then x.readerCount else x.contributors) ≤ i) then refuse 6
  else if !reader then
    if x.milepost ≤ mp then refuse milepostReason
    else
      let s := s.modQ q fun x => { x with
        contribs := x.contribs ++ [(i, { peer := srcPeer p, handle := BitVec.ofNat 4 p.srcEp.toNat, cfmt := bit w 19 })] }
      joinAccepted s q p
  else
    let rep := fld w 24 20
    let ep : SendEp := { peer := { srcPeer p with ep := BitVec.ofNat 8 rep }, inc := x.inc, maxlen := x.maxlen, statusOnly := true }
    let handle := BitVec.ofNat 4 p.srcEp.toNat
    if p.fabric then
     if mp ≤ x.milepost then refuse milepostReason
     else
      -- the reader's endpoint is on another package: the queue opens the channel before it answers
      let ep := { ep with st := SendState.opening }
      let s := s.modQ q fun x => { x with readers := x.readers ++ [(i, { ep, handle, join := some p })] }
      s.send { toPeer (queuePeer q x.inc) { ep.peer with inc := 0 } .chOpen with
        arg := fw 63 47 x.maxlen ||| fw 46 39 x.milepost, word := 0 }
    else
      let h := Home.core p.srcUnit
      let r := s.recvEp h rep
      if r.st ≠ .listening then refuse 2
      else if r.z < recordRows x.maxlen * 256 + 256 then refuse 5
      else if mp ≤ x.milepost then refuse milepostReason
      else
        let s := s.modRecv h rep fun r => { r with st := .opened, peer := queuePeer q x.inc }
        let ep := { ep with st := .opened, credit := r.z - 256, ring := r.z, wcopy := r.wptr, peer := { ep.peer with inc := r.inc } }
        joinAccepted (s.modQ q fun x => { x with readers := x.readers ++ [(i, { ep, handle })] }) q p

/-- A join arrives at a queue (R226, R243): it waits while the queue is CLOSED or BROKEN. -/
def joinArrives (s : State) (p : Pkt) : State :=
  let q := queueOf p
  let x := s.queue q
  let (off, fence) := match q with
    | .local c _ => (s.fusedOff c, s.fencing (.core c))
    | .saddle _ => (false, s.fencing .port)
  if off then hsReply s p 4 1 0 x.inc 0
  else if fence then hsReply s p 2 7 0 x.inc 0
  else if !x.waiting.isEmpty then hsReply s p 4 3 0 x.inc 0
  else if x.st = .forming ∨ x.st = .active then resolveJoin s q p
  else s.modQ q fun x => { x with waiting := [p] }

/-- The join that waits at a queue is resolved when the queue opens. -/
def resumeJoin (s : State) (q : QueueRef) : State :=
  match (s.queue q).waiting with
  | [] => s
  | p :: _ => resolveJoin (s.modQ q fun x => { x with waiting := [] }) q p

def joinExpires (s : State) (q : QueueRef) : State :=
  match (s.queue q).waiting with
  | [] => s
  | p :: _ => hsReply (s.modQ q fun x => { x with waiting := [] }) p 4 2 0 (s.queue q).inc 0

/-- The reply to a queue's open of a reader's endpoint on another package. -/
def readerOpened (s : State) (q : QueueRef) (p : Pkt) : State :=
  let mine (r : Nat × Reader) : Bool := r.2.join.isSome && r.2.ep.peer.svc == p.srcSvc && r.2.ep.peer.unit == p.srcUnit
    && r.2.ep.peer.ep == p.srcEp
  match (s.queue q).readers.find? mine with
  | some (i, { join := some j, .. }) =>
    if fld p.arg 63 60 = 0 then
      let s := s.modQ q fun x => { x with readers := x.readers.map fun (k, r) =>
        if k = i then (k, { r with join := none, ep := { r.ep with
          st := .opened, credit := fld p.arg 55 35, ring := fld p.arg 55 35 + 256, wcopy := p.word.toNat / 256
          peer := { r.ep.peer with inc := p.srcInc, chip := p.srcChip, pinc := p.srcPinc } } })
        else (k, r) }
      joinAccepted s q j
    else
      let s := s.modQ q fun x => { x with readers := x.readers.filter fun r => r.1 != i }
      hsReply s j (fld p.arg 63 60) (fld p.arg 59 56) 0 (s.queue q).inc 0
  | _ => s.stale

/-- HANDSHAKE_REPLY to a CQ.JOIN (R226, R243). -/
def joinReply (s : State) (c : CoreId) (hnd : Nat) (p : Pkt) : State :=
  let h := vget (s.core c).cq.handles hnd
  if !h.joining || (s.core c).inc != p.dstInc then s.stale
  else
    let status := fld p.arg 63 60
    let set (f : QHandle → QHandle) : State := s.modCq c fun q => { q with handles := vmod q.handles hnd f }
    if status = 0 then
      set fun h => { h with joining := false, valid := true, qinc := p.srcInc, qword := p.word &&& ~~~63, round := 0 }
    else
      let s := set fun _ => {}
      if fld p.arg 59 56 = milepostReason then s.cqRaise c 0x0602 0 hnd h.bundle
      else s.cqRaise c 0x0606 (if status = 2 then 7 else fld p.arg 59 56) hnd h.bundle

/-! ### Rounds (R246) -/

/-- Every contributor's contribution of the round has been combined. -/
def CombQueue.full (q : CombQueue) : Bool := q.contribs.length == q.contributors && q.contribs.all (fun c => c.2.complete)

/-- FP32-ordered: the sum of the parts in ascending contributor index, from +0, each addition rounded (R52). -/
def orderedSum (s : State) (q : QueueRef) (i : Nat) : Nat :=
  let x := s.queue q
  (List.range x.contributors).foldl (fun acc j =>
    toF32 ((f32 acc).add (f32 (ofLe (s.regionRead q (regionBase (queueLocal q) x.word + j * 4 * x.count + 4 * i) 4))))) 0

/-- Bytes of elements [lo, hi) of the round's result. -/
def resultBytes (s : State) (q : QueueRef) (lo hi : Nat) : List Byte :=
  let x := s.queue q
  if x.mode = 2 then ((List.range (hi - lo)).map fun i => leBytes 4 (orderedSum s q (lo + i))).flatten
  else
    let w := if x.mode = 1 then 16 else 4
    s.regionRead q (regionBase (queueLocal q) x.word + lo * w) ((hi - lo) * w)

/-- Elements of one delivery record (R246). -/
def CombQueue.perRecord (q : CombQueue) : Nat := if q.mode = 1 then 4096 else 16384

/-- The a-cycle in which the next delivery row of a queue of a core is read: after those that wait. -/
def CoreSt.nextDelivery (k : CoreSt) (id : Nat) : Nat :=
  (k.cm.asks.filter fun a => a.id == id).foldl (fun t a => max t (a.at_ + 1)) k.sq.clk

/-- The reads of elements [lo, hi) of the result of queue k of a core (R245, R246), from a-cycle `t` on: a row of the region, or of each
part in ascending contributor index, in an a-cycle; with each result row, a row of the record leaves. -/
def CombQueue.resultAsks (x : CombQueue) (k : Nat) (ps : List Pkt) (head : List Byte) (lo hi t : Nat) : List MemAsk :=
  let base := regionBase true x.word
  if x.mode ≠ 2 then
    let w := if x.mode = 1 then 16 else 4
    sendAsks ps head (base + lo * w) ((hi - lo) * w) t
  else
    let n := (hi - lo + 63) / 64
    (List.range n).flatMap fun j =>
      let from_ := lo + 64 * j
      let upTo := min hi (from_ + 64)
      (List.range x.contributors).map fun i =>
        let a := base + 4 * (i * x.count + from_)
        let b := a + 4 * (upTo - from_)
        { code := 12, seq := j * x.contributors + i, rows := (List.range ((b - 1) / 256 + 1 - a / 256)).map (a / 256 + ·)
          at_ := t + j * x.contributors + i
          move := if i + 1 < x.contributors then .regionRead k a (b - a)
            else .resultRow k (if j + 1 = n then ps.drop j else (ps.drop j).take 1) (if j = 0 then head else []) from_ upTo }

/-- A record of the round's sum leaves a queue (R246): at once from the saddle store, with its reads from core memory. -/
def sendResult (s : State) (q : QueueRef) (ep : SendEp) (lo hi : Nat) : SendEp × State :=
  let x := s.queue q
  let me := queuePeer q ep.inc
  let len := (hi - lo) * if x.mode = 1 then 16 else 4
  match q with
  | .saddle _ => s.sendRecord me ep 0 len x.round.toNat lo (resultBytes s q lo hi)
  | .local c k =>
    let head := header s 0 len x.round.toNat me ep.peer.inc ep.seq lo
    let t := (s.core c).nextDelivery x.sendId
    let asks := (x.resultAsks k.toNat (ep.rowPkts me 0 (recordRows len)) head lo hi t).map fun a => { a with seq := t + a.seq }
    (ep.spend 0 len, s.modCore c (·.postAs x.sendId asks))

/-- One delivery to the reader of an index: sent, counted as dropped when the reader is gone, or, with a PAD sent when one is needed,
waiting for credit (false) (R246, R247). -/
def deliverOne (s : State) (q : QueueRef) (ri lo : Nat) : State × Bool :=
  let x := s.queue q
  match x.readers.find? (fun r => r.1 == ri) with
  | none => (s, true)
  | some (_, r) =>
    if r.gone then (s.modQ q fun x => { x with drop := if x.drop = 0x1FFFF then x.drop else x.drop + 1 }, true)
    else
      let hi := min x.count (lo + x.perRecord)
      let len := (hi - lo) * if x.mode = 1 then 16 else 4
      let put (s : State) (ep : SendEp) : State := s.modQ q fun x => { x with
        readers := x.readers.map fun (k, r) => if k = ri then (k, { r with ep }) else (k, r) }
      let (ep, s) := s.sendPad (queuePeer q r.ep.inc) r.ep len
      if ep.mayIssue len then
        let (ep, s) := sendResult s q ep lo hi
        (put s ep, true)
      else (put s ep, false)

/-- The deliveries of a round from a reader and an element on, as far as the readers' credit goes. -/
def deliverFrom : Nat → State → QueueRef → Nat → Nat → State × Option (Nat × Nat)
  | 0, s, _, ri, lo => (s, some (ri, lo))
  | n + 1, s, q, ri, lo =>
    let x := s.queue q
    if x.readerCount ≤ ri then (s, none)
    else if x.count ≤ lo then deliverFrom n s q (ri + 1) 0
    else match deliverOne s q ri lo with
      | (s, true) => deliverFrom n s q ri (lo + x.perRecord)
      | (s, false) => (s, some (ri, lo))

/-- After the last delivery row ROUND advances, and each contributor has its completion (R246). -/
def roundFinish (s : State) (q : QueueRef) : State :=
  let owed := (s.queue q).contribs.filterMap fun c => c.2.req
  let s := s.modQ q fun x => { x with
    round := x.round + 1, rowsIn := [], deliver := none
    contribs := x.contribs.map fun (i, c) => (i, { c with landed := 0, complete := false, req := none }) }
  owed.foldl (fun s p => answerContrib s q p 0 0) s

/-- The accesses of a round's deliveries get a number. -/
def startDeliveries (s : State) (q : QueueRef) : State :=
  match q with
  | .saddle _ => s
  | .local c _ =>
    let id := (s.core c).cm.nextAsk
    (s.modCm c fun m => { m with nextAsk := id + 1 }).modQ q fun x => { x with sendId := id }

/-- ROUND_COMPLETE (R246): the sum goes to every reader; after the last delivery the round is over. A delivery that waits for a reader's
credit stalls the queue. -/
def roundComplete (q : QueueRef) (s : State) : State :=
  let x := s.queue q
  let (ri, lo) := x.deliver.getD (0, 0)
  if x.st ≠ .active ∨ !x.full ∨ x.readerCount ≤ ri then s
  else
    let s := if x.deliver.isNone then startDeliveries s q else s
    match deliverFrom (16 * (x.count / x.perRecord + 2) + 16) s q ri lo with
    | (s, some d) => s.modQ q fun x => { x with deliver := some d }
    | (s, none) => match q with
      | .saddle _ => roundFinish s q
      | .local c k =>
        let t := (s.core c).nextDelivery (s.queue q).sendId
        (s.modQ q fun x => { x with deliver := some (x.readerCount, 0) }).modCore c fun core =>
          core.postAs (vget core.cq.queues k.toNat).sendId
            [{ code := 12, seq := t, rows := [], at_ := t, move := .roundDone k.toNat (vget core.cq.queues k.toNat).inc }]

/-- What a served access of the CQ unit for a queue of the core does (R245, R246). -/
def queueServed (s : State) (c : CoreId) (a : MemAsk) : State :=
  match a.move with
  | .resultRow k ps head lo hi =>
    let q := QueueRef.local c (BitVec.ofNat 2 k)
    let x := s.queue q
    let base := regionBase true x.word
    let i := x.contributors - 1
    let (at_, len) := if x.mode = 2 then (base + 4 * (i * x.count + lo), 4 * (hi - lo)) else (base, 0)
    cmChecked s c at_ len fun s => s.leaveRows c a.id a.seq ps (head ++ resultBytes s q lo hi)
  | .roundDone k inc =>
    let q := QueueRef.local c (BitVec.ofNat 2 k)
    if (s.queue q).inc = inc then roundFinish s q else s
  | .regionRead _ addr len => cmChecked s c addr len id
  | .combine k inc addr data who req last => combineServed s (.local c (BitVec.ofNat 2 k)) inc addr data who req last
  | _ => s

def execRoundComplete (q : QueueRef) (s : State) : Res := live s (.next (roundComplete q s))

/-- CONTRIBUTION_COMPLETE (R246, R247): the contributor's handle is free again; a lost queue faults its core. -/
def contributionDone (p : Pkt) (s : State) : State :=
  if p.kind ≠ .resp ∨ fld p.word 5 0 ≠ 3 then s
  else arrive s p fun s =>
    let c := p.dstUnit
    let hnd := p.dstEp.toNat
    let h := vget (s.core c).cq.handles hnd
    if !h.busy || (s.core c).inc != p.dstInc then s.stale
    else
      let status := fld p.arg 63 60
      let s := s.modCq c fun q => { q with handles := vmod q.handles hnd fun h => { h with
        busy := false, round := if status ≤ 1 then h.round + 1 else h.round } }
      if status = 2 ∨ status = 3 then s.goneFault c status hnd h.statusOnly h.bundle else s

def execContributionComplete (p : Pkt) (s : State) : Res := live s (.next (contributionDone p s))

/-- A reader of a queue whose endpoint is gone loses its later deliveries (R247). -/
def readerGone (s : State) (q : QueueRef) (unit ep : BitVec 8) : State :=
  s.modQ q fun x => { x with readers := x.readers.map fun (k, r) =>
    if r.ep.peer.unit = unit ∧ r.ep.peer.ep = ep then (k, { r with gone := true }) else (k, r) }

/-- A credit return to a queue's channel to a reader (R233, R246), or to one whose CLOSE record waits for credit (log entry 108). -/
def queueCredit (s : State) (q : QueueRef) (p : Pkt) : State :=
  let mine (r : Reader) : Bool := r.ep.peer.unit == p.srcUnit && r.ep.peer.ep == p.srcEp && r.ep.peer.loc == !p.fabric
  let more (r : Reader) : Reader := { r with ep := { r.ep with credit := r.ep.credit + fld p.arg 63 43 } }
  match (s.queue q).owed.find? fun r => mine r && r.ep.inc == p.dstInc with
  | some r => closeReader (s.modQ q fun x => { x with owed := x.owed.erase r }) q (more r)
  | none =>
    if (s.queue q).inc ≠ p.dstInc then s.stale
    else s.modQ q fun x => { x with readers := x.readers.map fun (k, r) => if mine r then (k, more r) else (k, r) }

/-- CQ_LQS and CQ_SQS (R252). -/
def lqsWord (q : CombQueue) : Word :=
  let code := match q.st with
    | .closed => 0
    | .forming => 1
    | .active => 2
    | .broken => 3
  let in_ := q.contribs.filter fun c => c.2.complete
  let head := ((List.range 64).find? fun i => !(in_.any fun c => c.1 == i)).getD 63
  fw 63 62 code ||| fw 61 46 q.round.toNat ||| fw 45 39 in_.length ||| fw 38 33 (if q.st = .closed then 0 else head)
    ||| fw 32 17 q.inc.toNat ||| fw 16 0 q.drop.toNat

/-- CQ_LQ and CQ_SQ: the queue word while the queue is not CLOSED. -/
def lqWord (q : CombQueue) : Word := if q.st = .closed then 0 else q.word

/-- CQ_QH (R252). -/
def qhWord (h : QHandle) : Word :=
  fw 63 63 (if h.valid then 1 else 0) ||| fw 62 62 (if h.reader then 1 else 0) ||| fw 61 56 h.index.toNat
    ||| fw 55 55 (if h.saddle then 1 else 0) ||| fw 54 48 h.queue.toNat ||| fw 47 40 h.core.toNat ||| fw 39 24 h.svc.toNat
    ||| fw 23 8 h.qinc.toNat

end Sys2Proof.Machine
end

