-- ==== Sys2Proof/Machine/CSlot.lean ====
section
/-! DEFINITION. The C slot: channel and combining-queue instructions at issue (R218 to R247), and the events of handshakes,
responses, credits and hold limits. -/

namespace Sys2Proof.Machine

/-! ### Reserved fields (R218, R219, R224, R225, R232, R235, R242 to R244) -/

/-- Whether a C-slot word has a nonzero field that its instruction does not use; an unlisted opcode counts as one. -/
def cRsv (op : Nat) (b : BitVec 56) : Bool :=
  match op with
  | 0xA0 | 0xA1 => !zeroFld b 45 0
  | 0xA2 => false
  | 0xA3 => !zeroFld b 50 0
  | 0xA4 => !zeroFld b 24 0
  | 0xA5 => !zeroFld b 50 46 || !zeroFld b 44 0
  | 0xA6 => !zeroFld b 44 0
  | 0xA8 => !zeroFld b 55 51 || !zeroFld b 38 0 || (!bit b 45 && !zeroFld b 44 41)
  | 0xA9 => !zeroFld b 55 46 || !zeroFld b 38 0 || (!bit b 45 && !zeroFld b 44 41)
  | 0xAA => bit b 55 || !zeroFld b 45 0
  | 0xAB => bit b 55 || !zeroFld b 50 0
  | 0xAC => !zeroFld b 32 0
  | 0xAD => !zeroFld b 55 51 || !zeroFld b 45 0
  | _ => true

/-- Whether the operand word has a nonzero reserved or unused field. -/
def cWordRsv (op : Nat) (w : Word) : Bool :=
  match op with
  | 0xA0 => !zeroFld w 16 9 || !zeroFld w 6 0
  | 0xA1 => !zeroFld w 63 36 || !zeroFld w 31 23
  | 0xA8 => !zeroFld w 5 0 || (fld w 62 61 != 1 && !zeroFld w 36 27)
  | 0xAA => !zeroFld w 17 0 || (bit w 31 && bit w 19) || (!bit w 31 && !zeroFld w 24 20) || (bit w 38 && !zeroFld w 46 39) || (!bit w 38 && !zeroFld w 37 34)
  | _ => false

/-- The operand word s[SREG] of a layout K instruction. -/
def cWord (k : CoreSt) (b : BitVec 56) : Word := sreg k (fld b 50 46)

/-- The queue that CQ.OPEN or CQ.CLOSE names. -/
def cQueue (c : CoreId) (b : BitVec 56) : QueueRef :=
  if bit b 45 then .saddle (BitVec.ofNat 6 (fld b 44 39)) else .local c (BitVec.ofNat 2 (fld b 44 39))

/-- Source address of CH.SEND, and of CQ.CONTRIB. -/
def sendAddr (k : CoreSt) (b : BitVec 56) : Nat := areg23 k (fld b 50 47) + 256 * fld b 29 16
def contribAddr (k : CoreSt) (b : BitVec 56) : Nat := areg23 k (fld b 51 48) + 256 * fld b 47 33

/-- Destination address of CH.READ. -/
def readDst (k : CoreSt) (b : BitVec 56) : Nat := areg23 k (fld b 50 47) + 256 * fld b 46 32

/-- Bytes that a contribution of a handle reads. -/
def handleWidth (h : QHandle) : Nat := if fld h.qword 62 61 = 1 ∧ !h.cfmt then 16 else 4
def handleCount (h : QHandle) : Nat := fld h.qword 50 37 + 1

/-- CH.ACCEPT's ring is invalid (R224). -/
def ringBad (k : CoreSt) (e : Nat) (w : Word) : Bool :=
  let base := fld w 22 0
  let z := 4096 * 2 ^ fld w 35 32
  decide (8 < fld w 35 32) || base % 256 != 0 || decide (cmBytes < base + z)
    || (touchesAsync k base z && !insideAsync k base z)
    || (List.range 32).any fun i =>
        let r := vget k.cq.recv i
        i != e && r.st != .closed && decide (base < r.base + r.z ∧ r.base < base + z)

/-- CQ_FAULT.IDX of a C-slot word: the endpoint or handle that it names (R252). -/
def cIdx (op : Nat) (b : BitVec 56) : Nat :=
  if 0xA0 ≤ op ∧ op ≤ 0xA6 then fld b 55 51 else if op = 0xAA ∨ op = 0xAB then fld b 54 51 else if op = 0xAC then fld b 55 52 else 0

/-- The fault of a C-slot word at issue: reserved fields first, then the endpoint's state, then the operands
(R254, log entry 51). -/
def channelFault (s : State) (c : CoreId) (op : Nat) (b : BitVec 56) : Option SlotFault :=
  let k := s.core c
  let e := fld b 55 51
  let w := cWord k b
  let fail (code : Nat) : Option SlotFault := some (.cq code (cIdx op b))
  if cRsv op b || cWordRsv op w then fail 0x060E
  else match op with
    | 0xA0 =>
      if (vget k.cq.send e).st ≠ .closed then fail 0x0601
      else if 65536 < fld w 33 17 then fail 0x0604 else none
    | 0xA1 =>
      if (vget k.cq.recv e).st ≠ .closed then fail 0x0601
      else if ringBad k e w then fail 0x0603 else none
    | 0xA2 =>
      let x := vget k.cq.send e
      if x.st = .closed then fail 0x0601
      else if x.maxlen < fld b 46 30 then fail 0x0604
      else if areg k (fld b 50 47) % 256 ≠ 0 ∨ cmBytes < sendAddr k b + fld b 46 30 then fail 0x0605 else none
    | 0xA3 =>
      let r := vget k.cq.recv e
      if r.st = .closed ∨ r.rptr = r.wptr then fail 0x0601 else none
    | 0xA4 =>
      if (vget k.cq.recv e).st = .closed then fail 0x0601
      else if areg k (fld b 50 47) % 256 ≠ 0 then fail 0x0605 else none
    | 0xA8 => if queueCfgBad s (cQueue c b) w then fail 0x060A else none
    | 0xA9 =>
      let q := s.queue (cQueue c b)
      if q.st = .closed ∨ q.owner ≠ c then fail 0x0601 else none
    | 0xAA => if (vget k.cq.handles (fld b 54 51)).valid || (vget k.cq.handles (fld b 54 51)).joining then fail 0x0601 else none
    | 0xAB => if (vget k.cq.handles (fld b 54 51)).valid then none else fail 0x0601
    | 0xAC =>
      let h := vget k.cq.handles (fld b 55 52)
      if !h.valid || h.reader then fail 0x0601
      else if areg k (fld b 51 48) % 256 ≠ 0 ∨ cmBytes < contribAddr k b + handleCount h * handleWidth h then fail 0x0605
      else none
    | _ => none

/-- Unified registers that a C-slot word reads. -/
def channelReads (op : Nat) (b : BitVec 56) : List Nat :=
  match op with
  | 0xA0 | 0xA1 | 0xA8 | 0xAA | 0xAD => [fld b 50 46]
  | 0xA2 | 0xA4 => [32 + fld b 50 47]
  | 0xAC => [32 + fld b 51 48]
  | _ => []

def channelDest (op : Nat) (b : BitVec 56) : Option (Nat × Nat) :=
  match op with
  | 0xA4 => some (fld b 31 27, 3)
  | 0xA6 => some (fld b 50 46, 2)
  | _ => none

/-- Before a bundle is held or issues, a message that needs a PAD sends it when CREDIT allows (R233). -/
def channelPad (s : State) (c : CoreId) (op : Nat) (b : BitVec 56) : State :=
  if op ≠ 0xA2 then s
  else
    let e := fld b 55 51
    let x := s.sendEp (.core c) e
    let (x, s) := s.sendPad ((Home.core c).peer e x.inc) x (fld b 46 30)
    s.modSend (.core c) e fun _ => x

/-- The hold of a C-slot word (R227, R233, R244). A BROKEN endpoint is not held. -/
def channelHold (k : CoreSt) (op : Nat) (b : BitVec 56) : Option CqHold :=
  let x := vget k.cq.send (fld b 55 51)
  let credit (len : Nat) : Option CqHold :=
    if (x.st = .opened ∧ !x.mayIssue len) ∨ (x.st = .opening ∧ op = 0xA2) then some (if x.flowctl then .flow else .credit) else none
  match op with
  | 0xA2 => credit (fld b 46 30)
  | 0xA5 => if bit b 45 then none else credit 0
  | 0xAC => if (vget k.cq.handles (fld b 55 52)).busy then some .contrib else none
  | _ => none

def CqHold.cause : CqHold → Cause
  | .credit => .credit
  | .flow => .flow
  | .contrib => .contrib

/-- CQ_LIMITS.CREDIT_CYC; values below 1,024 act as 1,024 (R252). -/
def creditLimit (k : CoreSt) : Nat := max 1024 (fld k.cq.limits 31 0)

/-- Whether a credit or contribution hold has lasted its limit (R233, R244). -/
def holdExpired (k : CoreSt) (h : CqHold) : Bool :=
  match k.cq.holdStart with
  | some (t, g) => h != .flow && g == h && decide (t + creditLimit k ≤ k.sq.clk)
  | none => false

/-- The first held a-cycle is kept (R233). -/
def noteHold (k : CoreSt) (h : Option CqHold) : CoreSt :=
  { k with cq := { k.cq with holdStart := match h with
    | none => none
    | some h => match k.cq.holdStart with
      | some (t, g) => if g = h then some (t, g) else some (k.sq.clk, h)
      | none => some (k.sq.clk, h) } }

/-- The sends and handles of a core as packet sources. -/
def corePeer (c : CoreId) (ep : Nat) (inc : BitVec 16) : Peer := { unit := c, ep := BitVec.ofNat 8 ep, inc }

/-- CH.OPEN (R225, R226): the endpoint is OPENING and its request leaves. -/
def openEffect (s : State) (c : CoreId) (e : Nat) (w : Word) (bundle : BitVec 13) : State :=
  let mp := (s.core c).cq.mpCurrent
  let peer : Peer := { loc := bit w 47, svc := BitVec.ofNat 16 (fld w 63 48), unit := BitVec.ofNat 8 (fld w 46 39)
                       ep := BitVec.ofNat 8 (fld w 38 34) }
  let s := s.modSend (.core c) e fun x => { x with
    st := .opening, flowctl := bit w 8, statusOnly := bit w 7, credit := 0, maxlen := fld w 33 17, ring := 0, wcopy := 0
    seq := 0, mp, peer, flights := [], bundle }
  let me := corePeer c e (s.sendEp (.core c) e).inc
  s.send { toPeer me peer .chOpen with arg := fw 63 47 (fld w 33 17) ||| fw 46 39 mp.toNat, word := w }

/-- CH.SEND (R232 to R234, R239): CREDIT and W′ are those after the message, whose rows leave as they are read; on a BROKEN endpoint
nothing does. -/
def sendEffect (pre : State) (c : CoreId) (b : BitVec 56) (s : State) : State :=
  s.modSend (.core c) (fld b 55 51) fun x =>
    if x.st = .broken then { x with sent := x.sent + 1 }
    else { x.spend 0 (fld b 46 30) with sent := x.sent + 1, flights := x.flights ++ [(x.seq, (pre.core c).sq.pc)] }

/-- CQ.JOIN (R243): the join request leaves. -/
def joinEffect (s : State) (c : CoreId) (hnd : Nat) (w : Word) (bundle : BitVec 13) : State :=
  let mp := (s.core c).cq.mpCurrent
  let saddle := bit w 38
  let h : QHandle := { joining := true, reader := bit w 31, index := BitVec.ofNat 6 (fld w 30 25), saddle
                       queue := BitVec.ofNat 7 (fld w 37 32), core := BitVec.ofNat 8 (fld w 46 39), loc := bit w 47
                       svc := BitVec.ofNat 16 (fld w 63 48), cfmt := bit w 19, statusOnly := bit w 18
                       rep := BitVec.ofNat 5 (fld w 24 20), mp, bundle }
  let s := s.modCq c fun q => { q with handles := vmod q.handles hnd fun _ => h }
  let peer : Peer := { loc := h.loc, svc := h.svc, saddle, unit := if saddle then 0 else h.core, ep := BitVec.ofNat 8 (fld w 37 32) }
  s.send { toPeer (corePeer c hnd (s.core c).inc) peer .join with arg := fw 46 39 mp.toNat, word := w }

/-- The queue of a handle on this package. -/
def handleQueue (h : QHandle) : QueueRef :=
  if h.saddle then .saddle (BitVec.ofNat 6 h.queue.toNat) else .local h.core (BitVec.ofNat 2 h.queue.toNat)

/-- The identity of the queue of a handle. -/
def handlePeer (h : QHandle) : Peer :=
  { loc := h.loc, svc := h.svc, saddle := h.saddle, queue := true, unit := if h.saddle then 0 else h.core
    ep := BitVec.ofNat 8 h.queue.toNat, inc := h.qinc }

/-- The mark of a close notice by which a member leaves a queue of another package (log entry 49). -/
def leaveMark : Word := 128

/-- A member leaves its queue (R247): a contributor breaks it, a reader loses its later deliveries. A queue of another package has it by a
close notice, to which the fabric's packets give no other form (log entry 49). -/
def leaveQueue (s : State) (c : CoreId) (hnd : Nat) : State :=
  let h := vget (s.core c).cq.handles hnd
  let q := handleQueue h
  if !h.valid then s
  else if !h.loc then
    let me := corePeer c (if h.reader then h.rep.toNat else hnd) (s.core c).inc
    s.send { toPeer me (handlePeer h) .resp with
      arg := fw 63 60 5, word := queueMark (handlePeer h) ||| if h.reader then 0 else leaveMark }
  else if (s.queue q).inc ≠ h.qinc then s
  else if h.reader then readerGone s q c (BitVec.ofNat 8 h.rep.toNat)
  else breakQueue s q

/-- CQ.LEAVE (R247): the member leaves, and the handle is invalid. -/
def leaveEffect (s : State) (c : CoreId) (hnd : Nat) : State :=
  (leaveQueue s c hnd).modCq c fun x => { x with handles := vmod x.handles hnd fun _ => {} }

/-- The rows of a contribution on their way, with their bodies still to come (R244). -/
def contribPkts (c : CoreId) (inc : BitVec 16) (hnd : Nat) (h : QHandle) : List Pkt :=
  let rows := (handleCount h * handleWidth h + 255) / 256
  (List.range rows).map fun j => { toPeer (corePeer c hnd inc) { handlePeer h with queue := false } .cqRow with
    arg := fw 63 58 h.index.toNat ||| fw 57 48 j ||| fw 47 47 (if j + 1 = rows then 1 else 0)
      ||| fw 46 46 (if h.cfmt then 1 else 0) ||| fw 15 0 h.round.toNat }

/-- CQ.CONTRIB (R244): the handle is busy; the vector's rows leave as they are read. -/
def contribEffect (pre : State) (c : CoreId) (b : BitVec 56) (s : State) : State :=
  s.modCq c fun q => { q with handles := vmod q.handles (fld b 55 52) fun x => { x with busy := true, bundle := (pre.core c).sq.pc } }

/-- The core-memory accesses of a C-slot word (R156): the payload rows of CH.SEND and CQ.CONTRIB (R234, R244), and the first ring row of
CH.READ (R235). -/
def channelAsks (s : State) (c : CoreId) (op : Nat) (b : BitVec 56) : List MemAsk :=
  let k := s.core c
  let t := k.sq.clk
  match op with
  | 0xA2 =>
    let e := fld b 55 51
    let x := vget k.cq.send e
    let len := fld b 46 30
    let me := corePeer c e x.inc
    if x.st = .broken then []
    else sendAsks (x.rowPkts me 0 (recordRows len)) (header s 0 len (fld b 15 0) me x.peer.inc x.seq 0) (sendAddr k b) len (t + 1)
  | 0xAC =>
    let h := vget k.cq.handles (fld b 55 52)
    sendAsks (contribPkts c k.inc (fld b 55 52) h) [] (contribAddr k b) (ceilTo (handleCount h * handleWidth h) 256) (t + 1)
  | 0xA4 => readAsks (fld b 55 51) b (readDst k b) k.sq.pc t
  | _ => []

/-- What a C-slot word does in its issue a-cycle. -/
def channelEffect (pre : State) (c : CoreId) (op : Nat) (b : BitVec 56) (s : State) : State :=
  let k := pre.core c
  let e := fld b 55 51
  let w := cWord k b
  match op with
  | 0xA0 => openEffect s c e w k.sq.pc
  | 0xA1 =>
    listen (s.modRecv (.core c) e fun r => { r with
      mp := k.cq.mpCurrent, size := BitVec.ofNat 4 (fld w 35 32), base := fld w 22 0, wptr := 0, rptr := 0, landed := [] }) (.core c) e
  | 0xA2 => sendEffect pre c b s
  | 0xA4 => s.modSq c (·.await (fld b 31 27) 3)
  | 0xA5 => if bit b 45 then closeRecv s (.core c) e else closeSend s (.core c) e
  | 0xA8 => resumeJoin (openQueue s (cQueue c b) c w) (cQueue c b)
  | 0xA9 => closeQueue s (cQueue c b)
  | 0xAA => joinEffect s c (fld b 54 51) w k.sq.pc
  | 0xAB => leaveEffect s c (fld b 54 51)
  | 0xAC => contribEffect pre c b s
  | 0xAD => s.modCq c fun q => { q with mpStaged := BitVec.ofNat 8 (fld w 7 0), mpPending := true, mpBundle := k.sq.pc }
  | _ => s

/-- What a C-slot word does in the a-cycle after issue (R235 to R237, R239). -/
def channelLate (pre : State) (c : CoreId) (op : Nat) (b : BitVec 56) (s : State) : State :=
  let k := pre.core c
  let e := fld b 55 51
  match op with
  | 0xA2 =>
    if (s.sendEp (.core c) e).st = .broken ∧ (pre.sendEp (.core c) e).st = .broken then
      let s := s.modSend (.core c) e fun x => { x with done := x.done + 1, last := 4 }
      s.goneFault c 3 e (s.sendEp (.core c) e).statusOnly k.sq.pc
    else s
  | 0xA3 => freeHead s (.core c) e
  | 0xA6 =>
    s.writeReg c (fld b 50 46) (if bit b 45 then occWord (s.recvEp (.core c) e) else sepWord (s.sendEp (.core c) e)) 1
  | _ => s

/-! ### Events -/

/-- HANDSHAKE_REQUEST (R226, R243, R363): a CH.OPEN or a join arrives at its target. -/
def handshakeRequest (p : Pkt) (s : State) : State :=
  match p.kind with
  | .chOpen => arrive s p fun s => openArrives s (Home.of p) p.dstEp.toNat p
  | .join => arrive s p fun s => joinArrives s p
  | _ => s

def execHandshakeRequest (p : Pkt) (s : State) : Res := live s (.next (handshakeRequest p s))

/-- HANDSHAKE_WAIT_EXPIRY (R226): the wait window of the request at the target ends. -/
def handshakeWaitExpiry (t : HsTarget) (s : State) : State :=
  match t with
  | .ep c e => openExpires s (.core c) e.toNat
  | .nep e => openExpires s .port e.toNat
  | .localQueue c k => joinExpires s (.local c k)
  | .saddleQueue q => joinExpires s (.saddle q)

def execHandshakeWaitExpiry (t : HsTarget) (s : State) : Res := live s (.next (handshakeWaitExpiry t s))

/-- The command of HP_NEP_CMD that opened an endpoint ends (R363). -/
def nepDone (s : State) (status reason : Nat) : State :=
  { s with hp := { s.hp with nepCmd := setFld (setFld (clrFld s.hp.nepCmd 63 63) 51 49 status) 48 45 reason } }

/-- HANDSHAKE_REPLY (R226, R243, R363): the reply to a CH.OPEN or to a join. -/
def handshakeReply (p : Pkt) (s : State) : State :=
  let cls := fld p.word 5 0
  if p.kind ≠ .resp ∨ (cls ≠ 1 ∧ cls ≠ 2) then s
  else arrive s p fun s =>
    if cls = 2 then joinReply s p.dstUnit p.dstEp.toNat p
    else if p.dsad && p.dstUnit == 0 then readerOpened s (.saddle (BitVec.ofNat 6 p.dstEp.toNat)) p
    else if p.dsad then
      let was := s.sendEp .port p.dstEp.toNat
      let s := openReply s .port p.dstEp.toNat p
      if was.st = .opening ∧ was.inc = p.dstInc ∧ fld s.hp.nepCmd 59 52 = p.dstEp.toNat then
        nepDone s (lastCode (fld p.arg 63 60)).toNat (fld p.arg 59 56)
      else s
    else openReply s (.core p.dstUnit) p.dstEp.toNat p

def execHandshakeReply (p : Pkt) (s : State) : Res := live s (.next (handshakeReply p s))

/-- The combining queue that a marked response or credit return names. -/
def markedQueue (p : Pkt) : Option QueueRef :=
  if p.dsad && p.dstUnit == 0 then some (.saddle (BitVec.ofNat 6 p.dstEp.toNat))
  else if bit p.word 6 && !p.dsad then some (.local p.dstUnit (BitVec.ofNat 2 p.dstEp.toNat))
  else none

/-- Whether a packet names the host port's admission channel (R364). -/
def toAdmission (p : Pkt) : Bool := p.dsad && p.dstUnit == 1 && bit p.word 6

/-- DELIVERY_RESPONSE (R221, R234, R239, R240): the message completes at its sender, when its incarnation is that of the message. -/
def deliveryIn (p : Pkt) (s : State) : State :=
  if p.kind ≠ .resp ∨ fld p.word 5 0 ≠ 0 ∨ fld p.arg 63 60 = 5 then s
  else arrive s p fun s =>
    let status := fld p.arg 63 60
    match markedQueue p with
    | some q =>
      if (s.queue q).inc ≠ p.dstInc then s.stale
      else if status = 2 ∨ status = 3 then readerGone s q p.srcUnit p.srcEp else s
    | none =>
      if toAdmission p then
        if s.hp.admSend.inc ≠ p.dstInc then s.stale
        else if status = 2 ∨ status = 3 then { s with hp := { s.hp with admSend := s.hp.admSend.leave .broken } } else s
      else
        let h := Home.of p
        if (s.sendEp h p.dstEp.toNat).inc ≠ p.dstInc then s.stale
        else messageDone s h p.dstEp.toNat status (fld p.arg 34 0)

def execDeliveryResponse (p : Pkt) (s : State) : Res := live s (.next (deliveryIn p s))

/-! ### The host port as a sender (R362 to R364) -/

/-- The host port's admission channel as a packet source (R364). -/
def admissionPeer (s : State) : Peer := { saddle := true, queue := true, unit := 1, inc := s.hp.admSend.inc }

/-- The host port opens its channel to the admission endpoint when it first needs it and the program listens there (log entry
34). -/
def openAdmission (s : State) : State :=
  let c : CoreId := BitVec.ofNat 8 (fld s.hp.ringCfg 63 56)
  let e := fld s.hp.ringCfg 55 51
  let r := s.recvEp (.core c) e
  if s.hp.admSend.st = .opened ∨ !bit s.hp.ringCfg 50 ∨ r.st ≠ .listening then s
  else
    let s := s.modRecv (.core c) e fun r => { r with st := .opened, peer := admissionPeer s }
    { s with hp := { s.hp with admSend := { s.hp.admSend with
      st := .opened, flowctl := true, statusOnly := true, credit := r.z - 256, ring := r.z, wcopy := r.wptr, maxlen := 65536
      peer := { unit := c, ep := BitVec.ofNat 8 e, inc := r.inc } } } }

/-- The records that wait for the admission channel leave, in order, as its credit allows (R233, R364). `n` bounds them. -/
def flushAdmission : Nat → State → State
  | 0, s => s
  | n + 1, s =>
    match s.hp.admRecs with
    | [] => s
    | (tag, bytes) :: rest =>
      let me := admissionPeer s
      if s.hp.admSend.st ≠ .opened then s
      else
        let (x, s) := s.sendPad me s.hp.admSend bytes.length
        let s := { s with hp := { s.hp with admSend := x } }
        if !x.mayIssue bytes.length then s
        else
          let (x, s) := s.sendRecord me x 0 bytes.length tag 0 bytes
          flushAdmission n { s with hp := { s.hp with admSend := { x with sent := x.sent + 1 }, admRecs := rest } }

/-- A record for the admission ring. Without an admission endpoint there is none (R364). -/
def admissionRecord (s : State) (tag : Nat) (bytes : List Byte) : State :=
  if !bit s.hp.ringCfg 50 then s
  else
    let s := openAdmission { s with hp := { s.hp with admRecs := s.hp.admRecs ++ [(tag, bytes)] } }
    flushAdmission s.hp.admRecs.length s

/-- The messages that wait for a saddle send endpoint leave, each after those before it on its endpoint (R233, R363). -/
def flushNotices (s : State) : State :=
  let step (acc : State × List (Nat × List Byte)) (m : Nat × List Byte) : State × List (Nat × List Byte) :=
    let (s, kept) := acc
    let x := s.sendEp .port m.1
    let me := Home.port.peer m.1 x.inc
    if x.st = .opening then (s, kept ++ [m])
    else if x.st ≠ .opened then (s, kept)
    else if kept.any (fun k => k.1 == m.1) then (s, kept ++ [m])
    else
      let (x, s) := s.sendPad me x m.2.length
      let s := s.modSend .port m.1 fun _ => x
      if !x.mayIssue m.2.length then (s, kept ++ [m])
      else
        let seq := x.seq
        let (x, s) := s.sendRecord me x 0 m.2.length 0 0 m.2
        (s.modSend .port m.1 fun _ => { x with sent := x.sent + 1, flights := x.flights ++ [(seq, 0)] }, kept)
  let (s, kept) := s.hp.notices.foldl step ({ s with hp := { s.hp with notices := [] } }, [])
  { s with hp := { s.hp with notices := kept } }

/-- A message for a saddle send endpoint. -/
def portMessage (s : State) (e : Nat) (bytes : List Byte) : State :=
  flushNotices { s with hp := { s.hp with notices := s.hp.notices ++ [(e, bytes)] } }

/-- A CLOSE_SEND that waits for credit goes on (R227, R363). -/
def flushClose (s : State) : State :=
  let w := s.hp.nepCmd
  let e := fld w 59 52
  let x := s.sendEp .port e
  if !bit w 63 || fld w 62 60 != 4 || (x.st == .opened && (decide (x.credit < 256) || s.hp.notices.any fun m => m.1 == e)) then s
  else nepDone (closeSend s .port e) 1 0

/-- Everything that waits for the credit of a channel of the host port goes on. -/
def flushPort (s : State) : State := flushClose (flushNotices (flushAdmission s.hp.admRecs.length s))

/-- CREDIT_RETURN (R233, R240). -/
def creditReturn (p : Pkt) (s : State) : State :=
  if p.kind ≠ .credit then s
  else arrive s p fun s =>
    match markedQueue p with
    | some q => queueCredit s q p
    | none =>
      if toAdmission p then
        if s.hp.admSend.inc = p.dstInc then
          flushPort { s with hp := { s.hp with admSend := { s.hp.admSend with credit := s.hp.admSend.credit + fld p.arg 63 43 } } }
        else s.stale
      else
        let s := creditIn s (Home.of p) p.dstEp.toNat p.dstInc (fld p.arg 63 43)
        if p.dsad then flushPort s else s

def execCreditReturn (p : Pkt) (s : State) : Res := live s (.next (creditReturn p s))

/-- CLOSE_NOTICE (R227, R239). -/
def closeNotice (p : Pkt) (s : State) : State :=
  if p.kind ≠ .resp ∨ fld p.arg 63 60 ≠ 5 then s
  else arrive s p fun s =>
    match markedQueue p with
    | some q =>
      if (s.queue q).inc ≠ p.dstInc then s.stale
      else if bit p.word 7 then breakQueue s q
      else readerGone s q p.srcUnit p.srcEp
    | none =>
      if toAdmission p then
        if s.hp.admSend.inc ≠ p.dstInc then s.stale else { s with hp := { s.hp with admSend := s.hp.admSend.leave .broken } }
      else closeIn s (Home.of p) p.dstEp.toNat p.dstInc

def execCloseNotice (p : Pkt) (s : State) : Res := live s (.next (closeNotice p s))

end Sys2Proof.Machine
end

