-- ==== Sys2Proof/Machine/Matrix.lean ====
section
/-! DEFINITION. The matrix engine (chapter 3): stationary sets, descriptors, streams, lists, tiles, the checksum lane and
replay. -/

namespace Sys2Proof.Machine

/-! ### Descriptors (R63, R65) -/

def dAFmt (d : Word) : Nat := fld d 63 60
def dBFmt (d : Word) : Nat := fld d 59 56
def dAMx (d : Word) : Bool := bit d 55
def dBMx (d : Word) : Bool := bit d 54
def dFp32 (d : Word) : Bool := bit d 53
def dMgrp (d : Word) : Nat := fld d 50 48
def dAnchor (d : Word) : Int := sfld d 41 32
def dTag (d : Word) : Nat := fld d 31 16

/-- Width class of an operand format (R37): 8, 4 or 16, and 1 for INT8, which pairs only with itself. -/
def operandClass : Nat → Option Nat
  | 1 | 2 => some 16
  | 3 | 4 | 5 | 6 => some 8
  | 7 => some 4
  | 8 => some 1
  | _ => none

/-- The checks of R65 on the descriptor that opens a tile. -/
def descOk (d : Word) : Bool :=
  match operandClass (dAFmt d), operandClass (dBFmt d) with
  | some a, some b =>
    a == b && !((dAMx d || dBMx d) && (a == 16 || a == 1)) && !(a == 1 && dFp32 d)
  | _, _ => false

/-- K_arr of a format (R54). -/
def kArr (fmt : Nat) : Nat := if fmt = 7 then 64 else if fmt = 1 ∨ fmt = 2 then 16 else 32

/-- The exact values of the K_arr elements of a row or column, from its packed bytes. -/
def operandVals (fmt : Nat) (bs : List Byte) : List Val :=
  match fmtOf fmt with
  | some f => (unpack f.width bs (kArr fmt)).map f.decode
  | none => []

/-- Values with the scale of their 32-element block applied (R35). -/
def scaled (vs : List Val) (scaleAt : Nat → Nat) : List Val :=
  vs.zipIdx.map fun (v, k) => mxVal v (scaleAt (k / 32))

/-- Column n of the stationary image, with the set's scales when the descriptor declares them (R55, R56). -/
def statColumn (set : StatSet) (d : Word) (n : Nat) : List Val :=
  let w := if dBFmt d = 5 ∨ dBFmt d = 6 then 24 else 32
  let vs := operandVals (dBFmt d) ((set.image.drop (w * n)).take w)
  if dBMx d then
    scaled vs fun j => (set.scale.getD (if dBFmt d = 7 then 2 * n + j else n) 0x7F).toNat
  else vs

/-- Row r′ of an A-buffer line, with the scales of its A-scale entry when declared (R67). -/
def streamRow (me : Me) (d : Word) (line r : Nat) : List Val :=
  let vs := operandVals (dAFmt d) (Mem.read me.abuf (256 * line + 32 * r) 32)
  if dAMx d then scaled vs fun j => (Mem.get me.ascale (16 * line + 2 * r + j)).toNat else vs

/-! ### Accumulation (R41 to R43, R51, R70, R80) -/

/-- Byte address of element (m, n) of tile t in accumulator memory, in the layout of the accumulator image. -/
def accAddr (t m n : Nat) : Nat := t * 0x10000 + m * 1024 + n * 16

def accElem (acc : Mem) (t m n : Nat) : BitVec 128 := BitVec.ofNat 128 (Mem.num acc (accAddr t m n) 16)

/-- The products of a row and a column. -/
def products (a b : List Val) : List Val := List.zipWith Val.mul a b

/-- The sum of a nonempty list of terms before rounding (R51). -/
def exactSum : List Val → Val
  | [] => .fin false 0 0
  | v :: vs => vs.foldl Val.add v

/-- One element's partial of ordered FP32 accumulation: four cubes along K, each rounded once, joined in a fixed
tree (R51). -/
def fp32Partial (ps : List Val) : Val :=
  let kc := ps.length / 4
  let c (j : Nat) : Val := f32 (toF32 (exactSum ((ps.drop (j * kc)).take kc)))
  let add (x y : Val) : Val := f32 (toF32 (x.add y))
  add (add (c 0) (c 1)) (add (c 2) (c 3))

/-- One element after the products of an a-cycle: WIDE112 adds each floored product, FP32 adds the partial. -/
def accStep (d : Word) (old : BitVec 128) (ps : List Val) : BitVec 128 :=
  if dFp32 d then BitVec.ofNat 128 (toF32 ((f32 (old.toNat % 2 ^ 32)).add (fp32Partial ps)))
  else ps.foldl (fun c p => wideAdd c (contribOf (dAnchor d) p).c) old

/-- A special value enters the checksum sum as zero; its row and group are excluded (R80). -/
def finPart : Val → Val
  | .fin n m e => .fin n m e
  | _ => .fin false 0 0

/-- The lane of one row and one group of eight columns after an a-cycle (R80). -/
def laneStep (d : Word) (old : Lane) (row : List Val) (cols : List (List Val)) : Lane :=
  let anchor := dAnchor d
  let contribs := cols.flatMap fun col => (products row col).map (contribOf anchor)
  let s := (List.range row.length).map fun k => (cols.map fun col => finPart (col.getD k (.fin false 0 0))).foldl Val.add (.fin false 0 0)
  let q := (products (row.map finPart) s).foldl Val.add (.fin false 0 0)
  let f : Int := match q with
    | .fin neg m e => floorVal neg m (e - anchor)
    | _ => 0
  { c := old.c + BitVec.ofInt 112 f
    l := old.l + (contribs.filter (·.lost)).length
    e := old.e || contribs.any (·.flagged) }

/-- The eight lanes of a tile row: an empty list is all zero. -/
def laneAt (lanes : List Lane) (m j : Nat) : Lane := lanes.getD (8 * m + j) {}

/-- One row group enters the array: the rows that `rmask` enables and the columns that the column mask enables are
accumulated into rows 8 × rg on of the tile, and the checksum lanes follow (R67 to R70, R80). -/
def streamGroup (me : Me) (t : Nat) (d : Word) (rg : Nat) (line : Nat) (rmask : BitVec 8) (colMask : Word) : Me :=
  let cols := (List.range 64).map fun n => if bit colMask n then some (statColumn me.active d n) else none
  let rows := (List.range 8).map fun r => if bit rmask r then some (streamRow me d line r) else none
  let tile := vget me.tiles t
  let newBytes := (rows.zipIdx).flatMap fun (row, r) =>
    (cols.zipIdx).flatMap fun (col, n) =>
      let old := accElem me.acc t (8 * rg + r) n
      leBytes 16 (match row, col with
        | some a, some b => accStep d old (products a b)
        | _, _ => old).toNat
  let lanes :=
    if dFp32 d then tile.lanes
    else (List.range 512).map fun i =>
      let m := i / 8
      let j := i % 8
      let old := laneAt tile.lanes m j
      if m / 8 = rg then
        match rows.getD (m % 8) none with
        | some a => laneStep d old a (((cols.drop (8 * j)).take 8).filterMap id)
        | none => old
      else old
  { me with
    acc := Mem.write me.acc (accAddr t (8 * rg) 0) newBytes
    tiles := vset me.tiles t { tile with lanes } }

/-- Zero row groups [rg, rg + n) of a tile, with their flags and lanes (R77). -/
def zeroGroups (me : Me) (t rg n : Nat) : Me :=
  let tile := vget me.tiles t
  { me with
    acc := Mem.write me.acc (accAddr t (8 * rg) 0) (List.replicate (8192 * n) 0)
    tiles := vset me.tiles t { tile with
      lanes := tile.lanes.zipIdx.map fun (l, i) => if rg ≤ i / 64 ∧ i / 64 < rg + n then {} else l } }

/-- A contribution with INIT opens a FREE tile with the descriptor, or zeros its groups in an OPEN one (R77). -/
def initTile (me : Me) (t : Nat) (d : Word) (rg n : Nat) : Me :=
  if (vget me.tiles t).st = .free then
    let me := zeroGroups me t 0 8
    { me with tiles := vset me.tiles t { st := .opened, desc := d } }
  else zeroGroups me t rg n

/-- One record joins the replay log, which holds 1,024 (R82). -/
def logContribution (me : Me) (t : Nat) (rc : Contribution) : Me :=
  { me with tiles := vmod me.tiles t fun tile =>
      if tile.log.length < 1024 then { tile with log := tile.log ++ [rc] } else { tile with overflow := true } }

/-- An A-buffer line with its A-scale entry. -/
def Me.line (me : Me) (line : Nat) : List Byte := Mem.read me.abuf (256 * line) 256 ++ Mem.read me.ascale (16 * line) 16

/-- The last record of a tile's log, changed. -/
def Me.modLog (me : Me) (t : Nat) (f : Contribution → Contribution) : Me :=
  { me with tiles := vmod me.tiles t fun x => { x with log := match x.log.getLast? with
      | some r => x.log.dropLast ++ [f r]
      | none => [] } }

/-- The reads and writes of a row group check the A-buffer line, the A-scale entry when the descriptor declares scales, and the rows of
the tile that the group accumulates into; those are written without error (R67, R169). Then the core's engine changes. -/
def State.arrayAccess (s : State) (c : CoreId) (t rg line : Nat) (f : Me → Me) : State :=
  let lo := accAddr t (8 * rg) 0
  let scales (s : State) (k : State → State) : State :=
    if dAMx (vget (s.core c).me.tiles t).desc then checked s .ascale c (16 * line) (16 * line + 16) k else k s
  checked s .abuf c (256 * line) (256 * line + 256) fun s => scales s fun s =>
    checked s .acc c lo (lo + 8192) fun s => (clearErrs s .acc c lo (lo + 8192)).modMe c f

/-- Whether a tile is OPEN in a-cycle clk: after FIN it stays so until its last row group has been written (R76). -/
def Tile.isOpen (x : Tile) (clk : Nat) : Bool := x.st == .opened || (x.st == .check && decide (clk < x.freeAt))

/-- A contribution begins: INIT and its log record (R77, R82). -/
def beginContribution (me : Me) (t : Nat) (d : Word) (row0 : Nat) (groups : List (Nat × BitVec 8)) (colMask : Word)
    (init : Bool) : Me :=
  let me := if init then initTile me t d row0 groups.length else me
  logContribution me t { source := me.active.source, groups, row0, colMask, used := me.active.image ++ me.active.scale }

/-- A contribution with FIN ends: the tile is in CHECK from a-cycle `done` (R76, R86). -/
def finishContribution (me : Me) (t : Nat) (fin : Bool) (done : Nat) : Me :=
  if fin then { me with tiles := vmod me.tiles t fun x => { x with st := .check, freeAt := done } } else me

/-- A row group of the contribution that began last in a tile enters the array; the record keeps what it reads (R67, R85). -/
def enterTile (me : Me) (t rg : Nat) (g : Nat × BitVec 8) (colMask : Word) : Me :=
  streamGroup (me.modLog t fun r => { r with used := r.used ++ me.line g.1 }) t (vget me.tiles t).desc rg g.1 g.2 colMask

/-- The tile that a stream's next row group enters (R69). -/
def StreamRest.target (r : StreamRest) : Nat := r.tile + r.block % (r.ring + 1)

/-- The stream whose next contribution begins in a-cycle `clk`: its row group is due and its tile is to be had; a stream longer than a
tile stops before a 64-row block whose tile is not FREE (R77, R78). -/
def Me.begins (me : Me) (clk : Nat) : Option StreamRest :=
  me.stream.filter fun r => decide (r.at_ ≤ clk) && r.start && !(r.long && (vget me.tiles r.target).st != .free)

/-- A stream's next contribution begins. -/
def Me.beginNext (me : Me) (clk : Nat) : Me :=
  match me.begins clk with
  | none => me
  | some r =>
    { beginContribution me r.target r.desc r.row0 (r.groups.take 8) r.colMask r.init with stream := some { r with start := false } }

/-- The next row group of a stream enters the array in a-cycle `clk` (R67 to R69, R86). -/
def enterGroup (me : Me) (r : StreamRest) (g : Nat × BitVec 8) (clk : Nat) : Me :=
  let t := r.target
  let rest := r.groups.tail
  let last := rest.isEmpty || r.row0 == 7
  let me := finishContribution (enterTile me t r.row0 g r.colMask) t (r.fin && last) (clk + 4)
  { me with
    accUntil := clk + 4
    stream :=
      if rest.isEmpty then none
      else some { r with
        groups := rest, start := last, at_ := clk + 1
        block := if last then r.block + 1 else r.block
        row0 := if last then 0 else r.row0 + 1 } }

/-- A held a-cycle inside the engine: every later entry into the array moves by it (R66, R78, R87, R138, R139). -/
def CoreSt.engineHold (k : CoreSt) (cause : Cause) : CoreSt :=
  let k := k.countHold cause
  { k with
    sq := k.sq.deviate 0x10 1
    me := { k.me with mFree := k.me.mFree + 1, arrayUntil := k.me.arrayUntil + 1 } }

/-! ### SWAP (R62) -/

def Me.pending (me : Me) : Bool := !me.pendWs.isEmpty || !me.pendCm.isEmpty

/-- The sets are exchanged (R62). -/
def Me.swap (me : Me) : Me := { me with active := me.stirrup, stirrup := me.active, fresh := false, swapDue := false }

/-- What the engine does as a-cycle `clk` begins, before anything is issued or landed in it: a SWAP takes effect (R60, R62), and the
contribution whose first row group is due opens its tile (R77). -/
def Me.turn (me : Me) (clk : Nat) : Me := (if me.swapDue then me.swap else me).beginNext clk

/-- A SWAP is held while FRESH is clear and a load is pending. -/
def swapHeld (me : Me) : Bool := !me.fresh && me.pending

/-! ### M and D slot instructions of the engine -/

/-- MMA.STREAM (R68): row groups, lines and enables of its groups. -/
def streamLines (k : CoreSt) (b : BitVec 56) : List (Nat × BitVec 8) :=
  let g := fld b 47 35 + 1
  let first := fld b 25 17 + if bit b 16 then areg k (fld b 15 12) else 0
  (List.range g).map fun i =>
    ((first + i) % 512, if i + 1 = g then vget k.sq.rm (fld b 11 9) else 0xFF)

/-- Whether a contribution with INIT opens the tile: it is not OPEN already (R77). -/
def opensTile (k : CoreSt) (t : Nat) : Bool := !(vget k.me.tiles t).isOpen k.sq.clk

/-- The fault of MMA.STREAM at issue. Of several, the reserved fields come first, then the tile, the shape, the formats and the tile's
state; TILE + RING is checked where the ring is used, for a stream of more than 8 row groups (DESIGN CHOICE, log entry 108). -/
def streamFault (k : CoreSt) (b : BitVec 56) : Option SlotFault :=
  let g := fld b 47 35 + 1
  let t := fld b 51 48
  let row0 := fld b 34 32
  let init := bit b 31
  let fin := bit b 30
  if !zeroFld b 5 0 then some (.me 0x0209 t)
  else if 8 ≤ t ∨ (8 < g ∧ 8 ≤ t + fld b 28 26) then some (.me 0x0201 t)
  else if (g ≤ 8 ∧ 8 < row0 + g) ∨ (8 < g ∧ !(init && fin && row0 == 0)) then some (.me 0x0202 t)
  else if init && (opensTile k t || decide (8 < g)) && !descOk (vget k.me.td (fld b 55 52)) then some (.me 0x0203 t)
  else if !init && opensTile k t then some (.me 0x0204 t)
  else none

/-- The fault of MMA.LIST at issue (R73): the address before the region (DESIGN CHOICE, log entry 108). -/
def listFault (k : CoreSt) (b : BitVec 56) : Option SlotFault :=
  let a := areg k (fld b 51 48)
  if !zeroFld b 13 0 then some (.me 0x0209 0)
  else if a % 256 ≠ 0 ∨ cmBytes ≤ a then some (.me 0x0205 0)
  else if 512 < fld b 31 23 + fld b 22 14 + 1 then some (.me 0x0206 0)
  else none

/-- MMA.LDTD's row address (R66). -/
def ldtdAddr (k : CoreSt) (b : BitVec 56) : Nat := areg k (fld b 55 52) + fld b 14 0 * 256

def ldtdFault (k : CoreSt) (b : BitVec 56) : Option SlotFault :=
  if !zeroFld b 43 15 then some (.me 0x0209 0)
  else if ldtdAddr k b % 256 ≠ 0 ∨ cmBytes ≤ ldtdAddr k b then some (.me 0x0205 0)
  else if 15 < fld b 51 48 + fld b 47 44 then some (.me 0x0207 0)
  else none

/-- The sources of the loads of an LDS run (R57, R58): the image address of load i is the base plus
(OFF + i × STRIDE) blocks of 2,048 bytes or rows of 256. -/
def ldsSources (k : CoreSt) (path : LdsPath) (b : BitVec 56) : List Source :=
  let off := if path = .wstream then fld b 15 0 else fld b 14 0
  let unit := if path = .wstream then 2048 else 256
  let base := if path = .wstream then areg k (fld b 55 52) % 2 ^ 37 else areg k (fld b 55 52)
  let sw := if bit b 26 then 128 else 64
  (List.range (fld b 51 44 + 1)).map fun i =>
    { path, addr := base + (off + i * fld b 43 32) * unit,
      scale := if bit b 31 then some (areg k (fld b 30 27) + i * sw, sw) else none }

/-- Whether a load's addresses are in range and aligned (R59). -/
def sourceOk (c : CoreId) (s : Source) (base : Nat) : Bool :=
  (match s.path with
    | .wstream =>
      -- the offset field, with the whole distance added to it, stays below 0x300_0000 in the core's own column
      let off := base % 2 ^ 26 + (s.addr - base)
      taColumn base == c.toNat && decide (off < tierBytes) && off % 2048 == 0
    | .cm => decide (s.addr + 2048 ≤ cmBytes) && s.addr % 256 == 0)
  && (match s.scale with
    | none => true
    | some (a, w) => a % w == 0 && decide (a + w ≤ cmBytes))

/-- Faults of LDS.WSTREAM and LDS.CM, checked on the first and the last load (R59). -/
def ldsFault (k : CoreSt) (c : CoreId) (path : LdsPath) (b : BitVec 56) : Option SlotFault :=
  let rsv := if path = .wstream then !zeroFld b 25 16 else !zeroFld b 25 15
  let base := if path = .wstream then areg k (fld b 55 52) % 2 ^ 37 else areg k (fld b 55 52)
  let srcs := ldsSources k path b
  let ok := fun (x : Option Source) => match x with
    | some s => sourceOk c s base
    | none => true
  if rsv then some (.me 0x0209 0)
  else if !(ok srcs.head? && ok srcs.getLast?) then some (.me 0x0205 0)
  else none

/-- The M slot's path into the array is busy (R74). -/
def mBusy (k : CoreSt) : Bool := decide (k.sq.clk < k.me.mFree) || k.me.stream.isSome || k.me.list.isSome

/-- Heavy units of a quarter that are occupied in a-cycle `t` (R87, R138). The cores' counts of a-cycles run together (log entry
109). -/
def heavyUnits (s : State) (q t : Nat) : Nat :=
  ((List.range 64).map fun i =>
    let me := (s.core (BitVec.ofNat 8 (q * 64 + i))).me
    (if me.arrayFrom ≤ t ∧ t ≤ me.arrayUntil then 1 else 0) + (if me.portFrom ≤ t ∧ t ≤ me.portUntil then 1 else 0)).sum

/-- Holds of an M-slot instruction (R61, R62, R66, R74, R78). -/
def meHolds (k : CoreSt) (op : Nat) (b : BitVec 56) : List Cause :=
  match op with
  | 0x21 =>
    let t := fld b 51 48
    let opens := bit b 31 && opensTile k t
    let long : Bool := decide (8 ≤ fld b 47 35)
    (if mBusy k then [.meIssue] else [])
      ++ (if bit b 29 && swapHeld k.me then [.stirrup] else [])
      ++ (if opens ∧ (vget k.me.tiles t).st ≠ .free then [.tile] else [])
      ++ (if (opens || long) ∧ k.sq.clk < vget k.me.tdAt (fld b 55 52) then [.td] else [])
  | 0x22 => (if mBusy k then [.meIssue] else []) ++ (if bit b 35 && swapHeld k.me then [.stirrup] else [])
  | 0x23 => (if mBusy k then [.meIssue] else []) ++ (if swapHeld k.me then [.stirrup] else [])
  | 0x31 => if k.sq.clk < k.me.wsFree then [.meIssue] else []
  | 0x32 => if k.sq.clk < k.me.cmFree then [.meIssue] else []
  | _ => []

/-- MMA.STREAM (R68 to R70, R77, R78): its row groups are handed to the array, which the first enters in the next a-cycle. The
descriptor is that of the a-cycle of issue (R64). -/
def streamEffect (pre : CoreSt) (b : BitVec 56) (k : CoreSt) : CoreSt :=
  let g := fld b 47 35 + 1
  let t := k.sq.clk
  let long := decide (8 < g)
  { k with me := { k.me with
      swapDue := bit b 29
      mFree := t + g, arrayFrom := t + 1, arrayUntil := t + g
      stream := some {
        groups := streamLines pre b, tile := fld b 51 48, ring := if long then fld b 28 26 else 0
        row0 := fld b 34 32, desc := vget pre.me.td (fld b 55 52), colMask := vget pre.sq.cm (fld b 8 6)
        init := bit b 31, fin := bit b 30, long, at_ := t + 1 } } }

/-- MMA.LIST (R71): the list is handed to the engine; its entries enter one by one, the first two a-cycles after issue (R86). -/
def listEffect (pre : CoreSt) (b : BitVec 56) (k : CoreSt) : CoreSt :=
  let t := k.sq.clk
  { k with me := { k.me with
      swapDue := bit b 35
      mFree := t + fld b 47 36 + 2, arrayFrom := t + 2, arrayUntil := t + fld b 47 36 + 2
      list := some {
        addr := areg pre (fld b 51 48), next := 0, last := fld b 47 36, td := BitVec.ofNat 4 (fld b 55 52)
        colMask := vget pre.sq.cm (fld b 34 32), rlo := fld b 31 23, rlen := fld b 22 14, bundle := pre.sq.pc, at_ := t + 2 } } }

/-- SWAP (R62, R74): it takes effect in the next a-cycle. -/
def swapEffect (k : CoreSt) : CoreSt := { k with me := { k.me with swapDue := true, mFree := k.sq.clk + 1 } }

/-- MMA.LDTD (R66): TD[FIRST …] are usable by a stream three a-cycles after issue (R86); the read of the next a-cycle brings them. -/
def ldtdEffect (b : BitVec 56) (k : CoreSt) : CoreSt :=
  { k with me := { k.me with
      tdAt := (List.range (fld b 47 44 + 1)).foldl (fun at_ i => vset at_ (fld b 51 48 + i) (k.sq.clk + 3)) k.me.tdAt } }

/-- A descriptor as TD holds it: reserved fields read 0 (R9, R63). -/
def descWord (v : Word) : Word := v &&& 0xFFE703FFFFFF0000

/-- Words of core memory from a row on become descriptors (R66). -/
def CoreSt.loadDescs (k : CoreSt) (a first count : Nat) : CoreSt :=
  { k with me := { k.me with
      td := (List.range count).foldl (fun td i => vset td (first + i) (descWord (Mem.word k.cm.mem (a + 8 * i)))) k.me.td } }

/-- The core-memory and column-port reads of an LDS run (R86, R156, R177): a block, or eight rows, for each load, and a scale row for
each load whose scale image begins a new one. -/
def ldsAsks (k : CoreSt) (path : LdsPath) (b : BitVec 56) : List MemAsk :=
  let srcs := ldsSources k path b
  let n := srcs.length
  let t := k.sq.clk
  srcs.zipIdx.flatMap fun (x, i) =>
    let at_ := if path = .wstream then t + 1 + i else t + 1 + 8 * i
    let image : List MemAsk := match path with
      | .wstream => [{ code := 0, port := .tierRead, seq := 16 * i, rows := [x.addr / 2048], at_
                       stamps := .beat .wstream (t + 5 + i) :: if i + 1 = n then [.wsPath (t + n)] else []
                       move := .image .wstream t i x.addr 2048 }]
      | .cm => (List.range 8).map fun j =>
          { code := 4, seq := 16 * i + 2 * j, rows := [x.addr / 256 + j], at_ := at_ + j
            stamps := if j = 7 then .beat .cm (t + 9 + 8 * i) :: (if i + 1 = n then [.cmPath (t + 8 * n)] else []) else []
            move := .image .cm t i (x.addr + 256 * j) 256 }
    image ++ match x.scale with
      | some (a, w) =>
        if i = 0 ∨ a % 256 < w then
          [{ code := 5, seq := 16 * i + 1, rows := [a / 256], at_, move := .scales path t (a / 256) }]
        else []
      | none => []

/-- The core-memory reads of an M-slot word: the row of MMA.LDTD, and a row of every 32 entries of MMA.LIST (R86). -/
def matrixAsks (k : CoreSt) (op : Nat) (b : BitVec 56) : List MemAsk :=
  let t := k.sq.clk
  match op with
  | 0x22 =>
    let n := fld b 47 36 / 32
    (List.range (n + 1)).map fun i =>
      { code := 7, seq := i, at_ := t + 1 + 32 * i
        rows := if areg k (fld b 51 48) + 256 * i < cmBytes then [areg k (fld b 51 48) / 256 + i] else []
        stamps := if i = n then [.mSlot (t + fld b 47 36 + 2)] else [], move := .listRow (areg k (fld b 51 48) + 256 * i) }
  | 0x24 => [{ code := 6, seq := 0, rows := [ldtdAddr k b / 256], at_ := t + 1
               stamps := (List.range (fld b 47 44 + 1)).map fun i => .td (fld b 51 48 + i) (t + 3)
               move := .descs (ldtdAddr k b) (fld b 51 48) (fld b 47 44 + 1) }]
  | _ => []

/-- The loads of a run that is issued in a-cycle `t`, each with the a-cycle of its write beat (R60, R86). -/
def ldsLoads (path : LdsPath) (t : Nat) (srcs : List Source) : List PendLoad :=
  srcs.zipIdx.map fun (src, i) =>
    { src, run := t, num := i, at_ := match path with
        | .wstream => t + 5 + i
        | .cm => t + 9 + 8 * i }

/-- LDS.WSTREAM and LDS.CM (R57, R58, R61, R86). -/
def ldsEffect (pre : CoreSt) (path : LdsPath) (b : BitVec 56) (k : CoreSt) : CoreSt :=
  let t := k.sq.clk
  let loads := ldsLoads path t (ldsSources pre path b)
  let n := loads.length
  match path with
  | .wstream => { k with me := { k.me with
      pendWs := k.me.pendWs ++ loads, wsFree := t + n, portFrom := t + 1, portUntil := t + n } }
  | .cm => { k with me := { k.me with pendCm := k.me.pendCm ++ loads, cmFree := t + 8 * n } }

/-- The loads of a path that a run has pending, changed. -/
def Me.modLoads (me : Me) (path : LdsPath) (run : Nat) (f : PendLoad → PendLoad) : Me :=
  let go (l : List PendLoad) : List PendLoad := l.map fun x => if x.run = run then f x else x
  match path with
  | .wstream => { me with pendWs := go me.pendWs }
  | .cm => { me with pendCm := go me.pendCm }

/-- A read of a run brings a part of the image of load `num`. -/
def Me.imageRead (me : Me) (path : LdsPath) (run num : Nat) (data : List Byte) : Me :=
  me.modLoads path run fun x => if x.num = num then { x with image := x.image ++ data } else x

/-- A row of scale images is read, for every load of the run whose image lies in it (R86). -/
def Me.scalesRead (me : Me) (path : LdsPath) (run row : Nat) (data : List Byte) : Me :=
  me.modLoads path run fun x => match x.src.scale with
    | some (a, w) => if a / 256 = row then { x with scale := slice data (a % 256) w } else x
    | none => x

/-! ### Loads, checks and replay -/

/-- An image and scales land in a set (R56, R60, R82). A scale image of 64 bytes leaves bytes 64 to 127 of the set as they are, and a
set loaded without SC keeps beside its scales the scale address that an earlier load recorded (DESIGN CHOICE, log entry 108). -/
def StatSet.load (set : StatSet) (src : Source) (image scale : List Byte) : StatSet :=
  let kept : Option (Nat × Nat) := match set.source with
    | some x => x.scale
    | none => none
  { image, scale := scale ++ set.scale.drop scale.length
    source := some { src with scale := if src.scale.isSome then src.scale else kept } }

/-- A source is read again through its column port or core memory, with its scale image, into a set (R83). -/
def StatSet.reread (set : StatSet) (s : State) (c : CoreId) (src : Source) (k : StatSet → State → State) : State :=
  let go (s : State) : State :=
    let image := match src.path with
      | .wstream => s.tierFetch src.addr 2048
      | .cm => s.cmRead c src.addr 2048
    match src.scale with
    | none => k (set.load src image []) s
    | some (a, w) => cmChecked s c a w fun s => k (set.load src image (s.cmRead c a w)) s
  match src.path with
  | .wstream =>
    let f := taFlat (s.remap src.addr)
    checked s .tier c f (f + 2048) go
  | .cm => cmChecked s c src.addr 2048 go

/-- The check of a tile (R80, R81). -/
def tilePasses (me : Me) (t : Nat) : Bool :=
  let tile := vget me.tiles t
  dFp32 tile.desc ||
  (List.range 64).all fun m => (List.range 8).all fun j =>
    let l := laneAt tile.lanes m j
    l.e ||
    let sum : BitVec 112 := ((List.range 8).map fun i => (accElem me.acc t m (8 * j + i)).extractLsb' 0 112).foldl (· + ·) 0
    let d := (l.c - sum).toInt
    if l.l = 0 then d == 0 else decide (0 ≤ d ∧ d < (l.l : Int))

/-- FLAGS of a queue entry: the OR over the tile's elements, derived from the values of an FP32 tile (R81, R88). -/
def tileFlags (me : Me) (t : Nat) : Nat :=
  let d := (vget me.tiles t).desc
  let elems := (List.range 64).flatMap fun m => (List.range 64).map fun n => accElem me.acc t m n
  let f (p q : BitVec 128 → Bool) : Nat := if elems.any (if dFp32 d then p else q) then 1 else 0
  let v (x : BitVec 128) : Val := f32 (x.toNat % 2 ^ 32)
  8 * f (fun x => (v x).isNan) wNan + 4 * f (fun x => v x == .inf false) wPos + 2 * f (fun x => v x == .inf true) wNeg
    + f (fun _ => false) wHigh

/-- The queue entry of a tile (R79, layout of ME_FTQ_HEAD). -/
def ftqEntry (me : Me) (t : Nat) (cycle : Nat) : Word :=
  let d := (vget me.tiles t).desc
  fw 63 63 1 ||| fw 62 59 t ||| fw 58 55 (tileFlags me t) ||| fw 54 52 (dMgrp d) ||| fw 47 32 (dTag d) ||| fw 31 0 cycle

/-- A tile that passed its check joins the queue, or waits in DONE while the queue is full (R79). `freeAt` then holds
the a-cycle at which it passed. -/
def CoreSt.tilePass (k : CoreSt) (t : Nat) : CoreSt :=
  if k.me.ftq.length < 4 then
    { k with me := { k.me with
        ftq := k.me.ftq ++ [ftqEntry k.me t k.sq.cycle.toNat]
        tiles := vmod k.me.tiles t fun x => { x with st := .queued } } }
  else { k with me := { k.me with tiles := vmod k.me.tiles t fun x => { x with st := .done, freeAt := k.sq.clk } } }

/-- When a queue entry frees, the tile that has waited longest in DONE joins (R79). -/
def CoreSt.refillQueue (k : CoreSt) : CoreSt :=
  let waiting := (List.range 8).filter fun t => (vget k.me.tiles t).st == .done
  let first := waiting.foldl (fun (b : Option Nat) t => match b with
    | none => some t
    | some u => if (vget k.me.tiles t).freeAt < (vget k.me.tiles u).freeAt then some t else b) none
  match first with
  | some t => if k.me.ftq.length < 4 then k.tilePass t else k
  | none => k

/-- Whether a tile that failed its check can be replayed (R82, R83). -/
def replayable (t : Tile) : Bool := !t.overflow && t.log.all (fun r => r.source.isSome)

/-- A check failed: MISMATCH advances; the tile is replayed, or the package fail-stops with ME_CHK_PERSIST, which ME_FAULT takes too
(R83, R88). -/
def checkFailed (s : State) (c : CoreId) (t : Nat) : State :=
  let s := s.modMe c fun me => { me with chkCnt := satAdd me.chkCnt 63 32 1 }
  let tile := vget (s.core c).me.tiles t
  if replayable tile && decide (tile.replays < 2) then
    s.modMe c fun me => { me with
      chkCnt := satAdd me.chkCnt 31 0 1
      tiles := vmod me.tiles t fun x => { x with st := .replay, replays := x.replays + 1 } }
  else
    let s := s.modMe c fun me => { me with
      fault := firstFault me.fault (meFaultWord 0x0208 t 0 (s.core c).sq.pc.toNat) }
    s.failCode 0x0208 c false

/-- a-cycles of a replay: 20 + Σ c_i (R84). -/
def replayCycles (t : Tile) : Nat :=
  20 + (t.log.map fun r => match r.source with
    | some { path := .cm, .. } => max r.groups.length 8
    | _ => max r.groups.length 1).sum

/-- Whether what a replay reads for a record is what the contribution used (R85). -/
def Contribution.same (r : Contribution) (me : Me) : Bool :=
  r.used == me.active.image ++ me.active.scale ++ r.groups.flatMap fun g => me.line g.1

/-- The row groups of a record stream into a tile again; the last record holds what they read. -/
def replayGroups (c : CoreId) (t : Nat) (colMask : Word) : Nat → List (Nat × BitVec 8) → State → State
  | _, [], s => s
  | rg, g :: gs, s =>
    let d := (vget (s.core c).me.tiles t).desc
    replayGroups c t colMask (rg + 1) gs (s.arrayAccess c t rg g.1 fun me => streamGroup me t d rg g.1 g.2 colMask)

/-- The records of a tile are streamed again from their sources, read through the column port and core memory with their codes checked
(R83, R169, R199); `ok` tells that every source is unchanged so far. -/
def replayRecords (c : CoreId) (t : Nat) : List Contribution → Bool → (Bool → State → State) → State → State
  | [], ok, k, s => k ok s
  | r :: rs, ok, k, s =>
    match r.source with
    | none => replayRecords c t rs ok k s
    | some src => (s.core c).me.active.reread s c src fun set s =>
        let s := s.modMe c fun me => { me with active := set }
        let ok := ok && r.same (s.core c).me
        replayRecords c t rs ok k (replayGroups c t r.colMask r.row0 r.groups s)

/-- A resident set is loaded again from its recorded source after a replay (R83). -/
def StatSet.reload (set : StatSet) (s : State) (c : CoreId) (k : StatSet → State → State) : State :=
  match set.source with
  | some src => set.reread s c src k
  | none => k set s

/-- LDS_WRITE_BEAT (R60): the oldest load of the path, when its a-cycle has come (R86), lands in the set that is the stirrup set then,
and sets FRESH. -/
def writeBeat (c : CoreId) (path : LdsPath) (s : State) : State :=
  let k := s.core c
  match (if path = .wstream then k.me.pendWs else k.me.pendCm) with
  | [] => s
  | x :: rest =>
    if k.sq.clk < x.at_ then s
    else s.modMe c fun me =>
      let me := { me with stirrup := me.stirrup.load x.src x.image x.scale, fresh := true }
      if path = .wstream then { me with pendWs := rest } else { me with pendCm := rest }

def execLdsWriteBeat (c : CoreId) (path : LdsPath) (s : State) : Res := live s (.next (writeBeat c path s))

/-! ### Lists -/

/-- A list entry faults: the entries before it keep their effect, the engine enters no more (R73). -/
def listRaise (s : State) (c : CoreId) (l : ListRest) (code tile : Nat) : State :=
  let s := s.modMe c fun me => { me with
    list := none
    fault := firstFault me.fault (meFaultWord code tile l.next l.bundle.toNat) }
  s.raise c code 3 l.bundle.toNat

/-- The entry of a list that enters next. What lies above 8 MiB reads as zero, an entry with V = 0 (DESIGN CHOICE, log entry 108). -/
def ListRest.entry (l : ListRest) : Word := BitVec.ofNat 64 (ofLe (slice l.rows (8 * l.next) 8))

/-- Whether the row of the next entry has been read. -/
def ListRest.ready (l : ListRest) : Bool := decide (8 * (l.next + 1) ≤ l.rows.length)

/-- Whether the next entry opens a tile. -/
def ListRest.opens (l : ListRest) (k : CoreSt) : Bool := bit l.entry 47 && opensTile k (fld l.entry 54 51)

/-- The fault of the next entry of a list, the first in the order of R73 (R65, R72, R78). -/
def ListRest.faultCode (l : ListRest) (k : CoreSt) : Option Nat :=
  let e := l.entry
  let t := fld e 54 51
  let line := fld e 8 0
  if !bit e 63 then none
  else if line < l.rlo ∨ l.rlo + l.rlen + 1 ≤ line then some 0x0206
  else if 8 ≤ t then some 0x0201
  else if !bit e 47 && opensTile k t then some 0x0204
  else if l.opens k && (vget k.me.tiles t).st == .free && decide (vget k.me.tdAt l.td.toNat ≤ k.sq.clk)
      && !descOk (vget k.me.td l.td.toNat) then some 0x0203
  else none

/-- Why the next entry of a list is held inside the engine (R66, R78). -/
def ListRest.heldBy (l : ListRest) (k : CoreSt) : Option Cause :=
  if !bit l.entry 63 || (l.faultCode k).isSome || !l.opens k then none
  else if (vget k.me.tiles (fld l.entry 54 51)).st != .free then some .tile
  else if k.sq.clk < vget k.me.tdAt l.td.toNat then some .td
  else none

/-- The byte addresses of the accumulator that a contribution with INIT zeros (R77, R167). -/
def initSpan (me : Me) (t rg n : Nat) : Nat × Nat :=
  if (vget me.tiles t).st = .free then (accAddr t 0 0, accAddr (t + 1) 0 0)
  else (accAddr t (8 * rg) 0, accAddr t (8 * (rg + n)) 0)

/-- The zeroing of a contribution with INIT leaves no error (R167). -/
def State.clearInit (s : State) (c : CoreId) (t rg n : Nat) (init : Bool) : State :=
  if init then
    let (lo, hi) := initSpan (s.core c).me t rg n
    clearErrs s .acc c lo hi
  else s

/-- MMA_LIST_ENTRY (R72, R73): the next entry, when its a-cycle has come and its row has been read (R86), is checked and enters the
array, unless it is held. -/
def listEntry (c : CoreId) (s : State) : State :=
  let k := s.core c
  match k.me.list with
  | none => s
  | some l =>
    let e := l.entry
    let t := fld e 54 51
    let rg := fld e 50 48
    let g : Nat × BitVec 8 := (fld e 8 0, BitVec.ofNat 8 (fld e 62 55))
    let step (me : Me) : Me :=
      { me with list := if l.next = l.last then none else some { l with next := l.next + 1, at_ := l.at_ + 1 } }
    if k.sq.clk < l.at_ ∨ !l.ready ∨ (l.heldBy k).isSome then s
    else match l.faultCode k with
      | some code => listRaise s c l code t
      | none =>
        if !bit e 63 then s.modMe c step
        else
          let s := s.clearInit c t rg 1 (bit e 47)
          let s := s.modMe c fun me => beginContribution me t (vget me.td l.td.toNat) rg [g] l.colMask (bit e 47)
          s.arrayAccess c t rg g.1 fun me =>
            { step (finishContribution (enterTile me t rg g l.colMask) t (bit e 46) (k.sq.clk + 4)) with accUntil := k.sq.clk + 4 }

def execMmaListEntry (c : CoreId) (s : State) : Res := live s (.next (listEntry c s))

/-! ### What the array does in an a-cycle -/

/-- What the engine does as an a-cycle begins (`Me.turn`). -/
def State.turn (s : State) (c : CoreId) : State :=
  let k := s.core c
  let s := match (if k.me.swapDue then k.me.swap else k.me).begins k.sq.clk with
    | some r => s.clearInit c r.target r.row0 (min 8 r.groups.length) r.init
    | none => s
  s.modMe c (·.turn k.sq.clk)

/-- The stream in the array: its next row group enters, or waits for its tile (R67, R78). -/
def State.streamTick (s : State) (c : CoreId) : State :=
  let k := s.core c
  match k.me.stream with
  | none => s
  | some r =>
    if k.sq.clk < r.at_ then s
    else if r.start then s.modCore c fun k =>
      let k := k.engineHold .tile
      { k with me := { k.me with stream := some { r with at_ := k.sq.clk + 1 } } }
    else match r.groups with
      | [] => s.modMe c fun me => { me with stream := none }
      | g :: _ => s.arrayAccess c r.target r.row0 g.1 fun me => enterGroup me r g k.sq.clk

/-- A list in the array: its next entry is held (R66, R78), or waits for its row. -/
def CoreSt.listTick (k : CoreSt) : CoreSt :=
  match k.me.list with
  | none => k
  | some l =>
    let later (k : CoreSt) : CoreSt := { k with me := { k.me with list := some { l with at_ := k.sq.clk + 1 } } }
    if k.sq.clk < l.at_ then k
    else if !l.ready then later k
    else match l.heldBy k with
      | some cause => later (k.engineHold cause)
      | none => k

/-! ### Checks -/

/-- TILE_CHECK (R80, R81, R83): a tile whose check has run its three a-cycles (R76, R86) passes into the queue, or its replay starts. -/
def tileCheck (c : CoreId) (t : BitVec 3) (s : State) : State :=
  let k := s.core c
  let tile := vget k.me.tiles t.toNat
  if tile.st = .check ∧ tile.freeAt + 3 ≤ k.sq.clk then
    checked s .acc c (accAddr t.toNat 0 0) (accAddr (t.toNat + 1) 0 0) fun s =>
      let k := s.core c
      if tilePasses k.me t.toNat then s.setCore c (k.tilePass t.toNat) else checkFailed s c t.toNat
  else s

def execTileCheck (c : CoreId) (t : BitVec 3) (s : State) : Res := live s (.next (tileCheck c t s))

/-- ME_STATUS (R88). -/
def meStatus (me : Me) (clk : Nat) : Word :=
  let code : TileState → Nat := fun
    | .free => 0 | .opened => 1 | .check => 2 | .done => 3 | .queued => 4 | .draining => 5 | .replay => 6
  let tiles := (me.tiles.toList.zipIdx).foldl (fun a (t, i) => a + (if t.isOpen clk then 1 else code t.st) * 8 ^ i) 0
  fw 43 43 (if me.tiles.toList.any (fun t => t.st == .replay) then 1 else 0)
    ||| fw 42 42 (if me.fresh then 1 else 0)
    ||| fw 41 33 (me.pendWs.length + me.pendCm.length)
    ||| fw 32 30 me.ftq.length ||| fw 23 0 tiles

end Sys2Proof.Machine
end

