-- ==== Sys2Proof/Machine/Special.lean ====
section
/-! DEFINITION. The special functions of R99, correctly rounded, and the keyed counter generator of R111.

The transcendental functions are evaluated to `prec` fractional bits and rounded once; R99 asks for the exact result
rounded, and `prec` leaves more than 300 bits beyond the last bit of any FP32 result (log entry 12). -/

namespace Sys2Proof.Machine

/-- Fractional bits of the fixed-point evaluation. -/
def prec : Nat := 640

/-- One in fixed point. -/
def fxOne : Nat := 2 ^ prec

/-- Σ x^k / k! for k < n, in fixed point, for 0 ≤ x < 1. -/
def fxExp (n : Nat) (x : Nat) : Nat :=
  ((List.range n).foldl (fun (st : Nat × Nat) k => (st.1 + st.2, st.2 * x / fxOne / (k + 1))) (0, fxOne)).1

/-- 2 × Σ z^(2k + 1) / (2k + 1), which is ln ((1 + z) / (1 − z)), for 0 ≤ z < 1/2. -/
def fxLog (n : Nat) (z : Nat) : Nat :=
  let z2 := z * z / fxOne
  2 * ((List.range n).foldl (fun (st : Nat × Nat) k => (st.1 + st.2 / (2 * k + 1), st.2 * z2 / fxOne)) (0, z)).1

/-- ln 2 in fixed point: z = 1/3. -/
def fxLn2 : Nat := fxLog 210 (fxOne / 3)

/-- 2^y of y = n / d ≥ 0, as a mantissa in fixed point and a binary exponent. -/
def fxExp2 (n d : Nat) : Nat × Nat := (fxExp 180 (n % d * fxLn2 / d), n / d)

/-- e^(−y) of y = n / d > 0 in fixed point: 2^(−k) × e^f with f in [0, ln 2). -/
def fxExpNeg (n d : Nat) : Nat :=
  let y := n * fxOne / d
  let k := y / fxLn2 + 1
  fxExp 180 (k * fxLn2 - y) / 2 ^ k

/-- A positive ratio n / d, not representable exactly, as a value whose last bit stands for what the division and the
series leave off. -/
def inexactRatio (neg : Bool) (n d : Nat) : Val :=
  let s := prec + Nat.log2 d
  .fin neg (2 * (n * 2 ^ s / d) + 1) (-(s : Int) - 1)

/-- A positive ratio n / d rounded to odd: exact when the division leaves no remainder. -/
def ratio (neg : Bool) (n d : Nat) : Val :=
  let s := prec + Nat.log2 d
  let q := n * 2 ^ s / d
  .fin neg (2 * q + (if n * 2 ^ s % d = 0 then 0 else 1)) (-(s : Int) - 1)

/-- A magnitude m × 2^e as a ratio. -/
def asRatio (m : Nat) (e : Int) : Nat × Nat := (m * 2 ^ e.toNat, 2 ^ (-e).toNat)

/-- VEXP2 (R99). -/
def exp2Val : Val → Val
  | .nan => .nan
  | .inf neg => if neg then .fin false 0 0 else .inf false
  | .fin neg m e =>
    if m = 0 then .fin false 1 0
    else
      let (n, d) := asRatio m e
      if 256 * d ≤ n then (if neg then .fin false 1 (-400) else .fin false 1 400)
      else if n % d = 0 then .fin false 1 (if neg then -((n / d : Nat) : Int) else (n / d : Nat))
      else if neg then
        -- 2^(−y) = 2^(−k) × 2^f with k = floor(y) + 1 and f = k − y
        let k := n / d + 1
        let (f, _) := fxExp2 (k * d - n) d
        (inexactRatio false f fxOne).scale (-(k : Int))
      else
        let (f, k) := fxExp2 n d
        (inexactRatio false f fxOne).scale k

/-- VLOG2 (R99). -/
def log2Val : Val → Val
  | .nan => .nan
  | .inf neg => if neg then .nan else .inf false
  | .fin neg m e =>
    if m = 0 then .inf true
    else if neg then .nan
    else
      let k := msb m
      let i : Int := e + k
      if m = 2 ^ k then (if i = 0 then .fin false 0 0 else .fin (i < 0) i.natAbs 0)
      else
        -- m / 2^k in (1, 2): z = (x − 1) / (x + 1)
        let l := fxLog 210 ((m - 2 ^ k) * fxOne / (m + 2 ^ k))
        let frac := l * fxOne / fxLn2
        let total : Int := i * fxOne + frac
        inexactRatio (total < 0) total.natAbs fxOne

/-- VRCP (R99). -/
def rcpVal : Val → Val
  | .nan => .nan
  | .inf neg => .fin neg 0 0
  | .fin neg m e => if m = 0 then .inf neg else (ratio neg 1 m).scale (-e)

/-- VRSQRT (R99): 1 / sqrt(m × 2^e), with e made even. -/
def rsqrtVal : Val → Val
  | .nan => .nan
  | .inf neg => if neg then .nan else .fin false 0 0
  | .fin neg m e =>
    if m = 0 then .inf neg
    else if neg then .nan
    else
      let (m, e) := if e % 2 = 0 then (m, e) else (2 * m, e - 1)
      let s := prec
      let r := Nat.sqrt (2 ^ (2 * s) / m)
      .fin false (2 * r + (if r * r * m = 2 ^ (2 * s) then 0 else 1)) (-(s : Int) - 1 - e / 2)

/-- VTANH (R99): (1 − t) / (1 + t) with t = e^(−2|x|). -/
def tanhVal : Val → Val
  | .nan => .nan
  | .inf neg => .fin neg 1 0
  | .fin neg m e =>
    if m = 0 then .fin neg 0 0
    else
      let (n, d) := asRatio m e
      if 64 * d ≤ n then .fin neg (2 ^ 200 - 1) (-200)
      else
        let t := fxExpNeg (2 * n) d
        inexactRatio neg (fxOne - t) (fxOne + t)

/-- VSIGM (R99). -/
def sigmVal : Val → Val
  | .nan => .nan
  | .inf neg => if neg then .fin false 0 0 else .fin false 1 0
  | .fin neg m e =>
    if m = 0 then .fin false 1 (-1)
    else
      let (n, d) := asRatio m e
      if 256 * d ≤ n then (if neg then .fin false 1 (-300) else .fin false (2 ^ 200 - 1) (-200))
      else
        let t := fxExpNeg n d
        if neg then inexactRatio false t (fxOne + t) else inexactRatio false fxOne (fxOne + t)

/-- A special function's lane result with the sticky bits INVALID, OVERFLOW, DIVZERO that it sets (R99). -/
structure SpecialResult where
  code : Nat
  invalid : Bool := false
  overflow : Bool := false
  divzero : Bool := false
deriving DecidableEq, Repr

/-- Round a special function's exact value; DIVZERO is for a zero where the function has a pole, INVALID for a NaN
from an input that is none, OVERFLOW for an infinite result of another finite input. -/
def specialLane (f : Val → Val) (pole : Bool) (x : Nat) : SpecialResult :=
  let a := f32 x
  let v := f a
  let zero : Bool := match a with
    | .fin _ m _ => m == 0
    | _ => false
  let r := fp32.convert {} v
  { code := r.code,
    invalid := v.isNan && !a.isNan,
    overflow := r.infOut && a.isFin && !(zero && pole),
    divzero := zero && pole }

/-! ### Philox4x32-10 (R111) -/

/-- One round on the counter with the round's key. -/
def philoxRound (k x : Vector (BitVec 32) 4) : Vector (BitVec 32) 4 :=
  let p0 := 0xD2511F53 * x[0].toNat
  let p1 := 0xCD9E8D57 * x[2].toNat
  let w (n : Nat) : BitVec 32 := BitVec.ofNat 32 n
  #v[w (p1 / 2 ^ 32) ^^^ x[1] ^^^ k[0], w p1, w (p0 / 2 ^ 32) ^^^ x[3] ^^^ k[1], w p0]

/-- `n` rounds, the key advancing before each round after the first. -/
def philoxRounds : Nat → Vector (BitVec 32) 4 → Vector (BitVec 32) 4 → Vector (BitVec 32) 4
  | 0, _, c => c
  | n + 1, k, c =>
    philoxRounds n #v[k[0] + 0x9E3779B9, k[1] + 0xBB67AE85, 0, 0] (philoxRound k c)

/-- The four words of the block with key (k0, k1) and counter (c0, c1, c2, c3). -/
def philox (k0 k1 c0 c1 c2 c3 : BitVec 32) : Vector (BitVec 32) 4 :=
  philoxRounds 10 #v[k0, k1, 0, 0] #v[c0, c1, c2, c3]

/-- Word of element i from the scalar registers s[KREG], s[KREG + 1], s[KREG + 2] (R111). -/
def genWord (r0 r1 r2 : Word) (i : Nat) : BitVec 32 :=
  let lo (w : Word) : BitVec 32 := w.extractLsb' 0 32
  let hi (w : Word) : BitVec 32 := w.extractLsb' 32 32
  (philox (lo r0) (hi r0) (lo r2 + BitVec.ofNat 32 (i / 4)) (lo r1) (hi r1) (hi r2)).toList.getD (i % 4) 0

end Sys2Proof.Machine
end

