-- ==== Sys2Proof/Machine/Vector.lean ====
section
/-! DEFINITION. The vector engine (chapter 4): every vector instruction as a plan over VOB chunks, its faults, its holds
and its effect. -/

namespace Sys2Proof.Machine

/-- Sticky bits of VE_STATUS that an instruction sets (R98, R99, R469). -/
structure VFlags where
  invalid : Bool := false
  overflow : Bool := false
  divzero : Bool := false
deriving DecidableEq, Repr

def VFlags.or (a b : VFlags) : VFlags :=
  { invalid := a.invalid || b.invalid, overflow := a.overflow || b.overflow, divzero := a.divzero || b.divzero }

def VFlags.ofConv (c : Conv) : VFlags := { invalid := c.invalid, overflow := c.overflow }

/-- A VOB region of an instruction: its first byte, bytes per chunk and bytes in all (R91). -/
structure Region where
  base : Nat
  per : Nat
  total : Nat
deriving DecidableEq, Repr

/-- The bytes [lo, hi) of a region in chunk c. -/
def Region.chunk (r : Region) (c : Nat) : Nat × Nat :=
  (r.base + c * r.per, r.base + min ((c + 1) * r.per) r.total)

/-- What one chunk writes, with the flags it sets. -/
abbrev ChunkResult := List (Nat × List Byte) × VFlags

/-- A vector instruction planned at issue: its unit (ALU 0, SFU 1, SHF 2, GEN 3, DRN 4, MOV 5), latency, chunks, the
VOB regions it reads and writes, and its result in chunk c on the VOB as that chunk finds it (R94, R95). Chunk c is read in a-cycle
t + `first` + c and written at t + `lat` + c. -/
structure VPlan where
  unit : Nat
  first : Nat := 1
  lat : Nat
  chunks : Nat
  reads : List Region
  writes : List Region
  run : Mem → Nat → ChunkResult

def applyWrites (m : Mem) (ws : List (Nat × List Byte)) : Mem := ws.foldl (fun m w => Mem.write m w.1 w.2) m

def ceilDiv (a b : Nat) : Nat := (a + b - 1) / b

/-- Elements of chunk c out of n at e per chunk; those at n and above are neither read nor written (R92). -/
def chunkLen (n e c : Nat) : Nat := min e (n - c * e)

/-- Codes of chunk c of a vector of n elements of w bits at a base. -/
def chunkCodes (vob : Mem) (base w n e c : Nat) : List Nat :=
  let k := chunkLen n e c
  unpack w (Mem.read vob (base + c * (e * w / 8)) (k * w / 8)) k

/-- The write of chunk c's codes. -/
def chunkWrite (base w e c : Nat) (codes : List Nat) : Nat × List Byte := (base + c * (e * w / 8), pack w codes)

/-- A lane operation on chunk codes. -/
def laneChunk (dst w e : Nat) (f : Nat → Nat → Nat → Nat × VFlags) (as bs ds : List Nat) (c : Nat) : ChunkResult :=
  let rs := (as.zip (bs.zip ds)).map fun (a, b, d) => f a b d
  ([chunkWrite dst w e c (rs.map (·.1))], rs.foldl (fun fl r => fl.or r.2) {})

/-! ### Lane operations (R97, R98) -/

def ofConv (c : Conv) : Nat × VFlags := (c.code, VFlags.ofConv c)

/-- A floating-point lane operation 0 to 5: add, subtract, multiply, fused multiply-add, max, min. -/
def floatLane (f : FloatFmt) (k : Nat) (a b d : Nat) : Nat × VFlags :=
  let x := f.decode a
  let y := f.decode b
  let z := f.decode d
  match k with
  | 0 => ofConv (laneResult f [x, y] (x.add y))
  | 1 => ofConv (laneResult f [x, y] (x.add y.neg))
  | 2 => ofConv (laneResult f [x, y] (x.mul y))
  | 3 => ofConv (laneResult f [x, y, z] ((x.mul y).add z))
  | 4 => ofConv (laneResult f [x, y] (x.maxV y))
  | _ => ofConv (laneResult f [x, y] (x.minV y))

def s32 (x : Nat) : Int := (BitVec.ofNat 32 x).toInt

/-- The lane operation of opcodes 0x40 to 0x5F on 32-bit or BF16 codes (R97). -/
def laneOp (op : Nat) (a b d : Nat) : Nat × VFlags :=
  let plain (v : Nat) : Nat × VFlags := (v % 2 ^ 32, {})
  let mask (p : Bool) : Nat × VFlags := (if p then 2 ^ 32 - 1 else 0, {})
  match op with
  | 0x50 => plain (a + b)
  | 0x51 => plain (a + 2 ^ 32 - b)
  | 0x52 => plain (a * b)
  | 0x53 => plain (a &&& b)
  | 0x54 => plain (a ||| b)
  | 0x55 => plain (a ^^^ b)
  | 0x56 => plain (a * 2 ^ (b % 32))
  | 0x57 => plain (((BitVec.ofNat 32 a).sshiftRight (b % 32)).toNat)
  | 0x58 => plain (if s32 a < s32 b then b else a)
  | 0x59 => plain (if s32 a < s32 b then a else b)
  | 0x5B => mask (s32 a < s32 b)
  | 0x5C => mask ((f32 a).lt (f32 b))
  | 0x5D => mask ((f32 a).lt (f32 b) || (f32 a).eqV (f32 b))
  | 0x5E => mask ((f32 a).eqV (f32 b))
  | 0x5F => plain ((d &&& a) ||| ((2 ^ 32 - 1 - d) &&& b))
  | _ => if op < 0x48 then floatLane fp32 (op - 0x40) a b d else floatLane bf16 (op - 0x48) a b d

/-- Whether a V0 opcode is a lane instruction of layout A. -/
def isLaneOp (op : Nat) : Bool :=
  decide ((0x40 ≤ op ∧ op ≤ 0x45) ∨ (0x48 ≤ op ∧ op ≤ 0x4D) ∨ (0x50 ≤ op ∧ op ≤ 0x59) ∨ (0x5B ≤ op ∧ op ≤ 0x5F))

/-- Source lane of result lane j, `none` for a lane that reads zero (R100). -/
def shuffleLane (op s j : Nat) : Option Nat :=
  match op with
  | 0x70 => some (j ^^^ s)
  | 0x71 => some ((j + s) % 256)
  | 0x72 => some s
  | _ => if s ≤ j then some (j - s) else none

/-- Permitted shuffle distances (R100). -/
def shuffleOk (op s : Nat) : Bool :=
  match op with
  | 0x70 => [1, 2, 4, 8, 16, 32, 64, 128].contains s
  | 0x73 => decide (1 ≤ s ∧ s ≤ 255)
  | _ => decide (s ≤ 255)

/-- Latency of an instruction group (R95). -/
def vectorLat (a1 : Bool) (op : Nat) : Nat :=
  match op with
  | 0x43 | 0x4B => 4
  | 0x64 => 5
  | 0x62 => 4
  | 0x68 => if a1 then 9 else 7
  | 0x69 => 8
  | 0x6A | 0x6B => 6
  | 0x6C | 0x6D => 10
  | 0x70 | 0x71 | 0x72 | 0x73 => 2
  | 0x74 => 12
  | 0x78 => if a1 then 5 else 4
  | _ => 3

def specialOf (op : Nat) : Val → Val :=
  match op with
  | 0x68 => exp2Val
  | 0x69 => log2Val
  | 0x6A => rcpVal
  | 0x6B => rsqrtVal
  | 0x6C => tanhVal
  | _ => sigmVal

/-- A planned instruction, or the fault code that issue raises. -/
abbrev Plan := Except Nat VPlan

def faultIf (p : Bool) (code : Nat) (k : Plan) : Plan := if p then .error code else k

/-- Layout A: lane instructions, special functions, shuffles (R96). -/
def planA (k : CoreSt) (a1 : Bool) (op : Nat) (b : BitVec 56) : Plan :=
  let n := fld b 55 42 + 1
  let ar := fld b 41 38
  let dst := vobAddr k (fld b 34 24) (bit b 37) ar
  let src1 := vobAddr k (fld b 23 13) (bit b 36) ar
  let src2 := vobAddr k (fld b 12 2) (bit b 35) ar
  let ss := bit b 1
  let lane := isLaneOp op
  let shuf := decide (0x70 ≤ op)
  let bf := decide (0x48 ≤ op ∧ op ≤ 0x4D)
  let w := if bf then 16 else 32
  let e := if bf then 512 else 256
  let bytes := n * (w / 8)
  let rsv := bit b 0
    || (lane && ss && !zeroFld b 12 7)
    || (!lane && (ss || bit b 35 || (if shuf then !zeroFld b 12 10 else !zeroFld b 12 2)))
  let dist := fld b 9 2
  let usesD := op == 0x43 || op == 0x4B || op == 0x5F
  faultIf rsv 0x0309 <|
  faultIf (shuf && !shuffleOk op dist) 0x0307 <|
  faultIf (vobOut dst bytes || vobOut src1 bytes || (lane && !ss && vobOut src2 bytes)) 0x0303 <|
  let reg (a : Nat) : Region := { base := a, per := 1024, total := bytes }
  let sv := sreg k (fld b 6 2)
  .ok
    { unit := if lane then 0 else if shuf then 2 else 1
      lat := vectorLat a1 op
      chunks := ceilDiv n e
      reads := [reg src1] ++ (if lane && !ss then [reg src2] else []) ++ (if usesD then [reg dst] else [])
      writes := [reg dst]
      run := fun vob c =>
        let as := chunkCodes vob src1 w n e c
        if lane then
          let bs := if ss then as.map fun _ => sv.toNat % 2 ^ w else chunkCodes vob src2 w n e c
          let ds := if usesD then chunkCodes vob dst w n e c else as.map fun _ => 0
          laneChunk dst w e (laneOp op) as bs ds c
        else if shuf then
          ([chunkWrite dst 32 256 c ((List.range as.length).map fun j =>
              match shuffleLane op dist j with
              | some i => as.getD i 0
              | none => 0)], {})
        else
          laneChunk dst w e (fun x _ _ =>
            let r := specialLane (specialOf op) (op == 0x69 || op == 0x6A || op == 0x6B) x
            (r.code, { invalid := r.invalid, overflow := r.overflow, divzero := r.divzero })) as as as c }

/-- VXS (R101): reads one word; its result goes to a scalar register. -/
def vxsAddr (k : CoreSt) (b : BitVec 56) : Nat :=
  vobAddr k (fld b 50 40) (bit b 32) (fld b 36 33) + 4 * fld b 39 37

def planX (k : CoreSt) (b : BitVec 56) : Plan :=
  faultIf (!zeroFld b 31 0) 0x0309 <|
  faultIf (vobOut (vxsAddr k b) 4) 0x0303 <|
  .ok { unit := 2, lat := 3, chunks := 1, reads := [{ base := vxsAddr k b, per := 4, total := 4 }], writes := []
        run := fun _ _ => ([], {}) }

/-- Count rules of packed formats (R102): FP6 in fours, FP4 in twos. -/
def countBad (fmt n : Nat) : Bool := ((fmt == 5 || fmt == 6) && n % 4 != 0) || (fmt == 7 && n % 2 != 0)

def widthOf (fmt : Nat) : Nat := match fmtOf fmt with
  | some f => f.width
  | none => 32

/-- The random value of SR for element i: bits [31:16] of its generator word (R113). -/
def srRand (k : CoreSt) (kreg i : Nat) : Nat :=
  (genWord (sreg k kreg) (sreg k (kreg + 1)) (sreg k (kreg + 2)) i).toNat / 2 ^ 16

/-- VCVT (R102). Of several faults of one vector instruction the first in this order is raised: the reserved fields, the format, the
rounding, the generator, the count or the distance, the core-memory address, the VOB region (DESIGN CHOICE, log entry 108). -/
def planC (k : CoreSt) (b : BitVec 56) : Plan :=
  let n := fld b 55 42 + 1
  let sf := fld b 41 38
  let df := fld b 37 34
  let rnd := fld b 33 31
  let dst := vobAddr k (fld b 29 19) (bit b 2) 15
  let src := vobAddr k (fld b 18 8) (bit b 1) 15
  let kreg := fld b 7 3
  faultIf (bit b 0) 0x0309 <|
  faultIf (decide (9 < sf ∨ 9 < df)) 0x0301 <|
  faultIf (decide (4 < rnd)) 0x0302 <|
  faultIf (decide (rnd = 4 ∧ 29 < kreg)) 0x0306 <|
  faultIf (countBad sf n || countBad df n) 0x0304 <|
  faultIf (vobOut dst (n * widthOf df / 8) || vobOut src (n * widthOf sf / 8)) 0x0303 <|
  match fmtOf sf, fmtOf df with
  | some fs, some fd =>
    .ok { unit := 0, lat := 3, chunks := ceilDiv n 256
          reads := [{ base := src, per := 32 * fs.width, total := n * fs.width / 8 }]
          writes := [{ base := dst, per := 32 * fd.width, total := n * fd.width / 8 }]
          run := fun vob c =>
            let xs := chunkCodes vob src fs.width n 256 c
            let rs := xs.zipIdx.map fun (x, j) =>
              fd.convert { mode := rnd, sat := bit b 30, r := if rnd = 4 then srRand k kreg (256 * c + j) else 0 } (fs.decode x)
            ([chunkWrite dst fd.width 256 c (rs.map (·.code))], rs.foldl (fun fl r => fl.or (VFlags.ofConv r)) {}) }
  | _, _ => .error 0x0301

/-- Blocks of 32 of a list. -/
def blocks32 {α : Type} (xs : List α) : List (List α) :=
  (List.range (xs.length / 32)).map fun i => (xs.drop (32 * i)).take 32

/-- VQMX and VDQMX (R103). -/
def planQ (k : CoreSt) (a1 : Bool) (op : Nat) (b : BitVec 56) : Plan :=
  let n := fld b 55 42 + 1
  let dst := vobAddr k (fld b 37 27) false 0
  let src := vobAddr k (fld b 26 16) false 0
  let sca := vobAddr k (fld b 15 5) false 0
  faultIf (!zeroFld b 4 0) 0x0309 <|
  match fmtOf (fld b 41 38) with
  | some (.float f) =>
    let w := 1 + f.eb + f.mb
    faultIf (decide (8 < w)) 0x0301 <|
    faultIf (n % 32 != 0) 0x0304 <|
    let quant := op == 0x64
    let packed := if quant then dst else src
    let full := if quant then src else dst
    faultIf (vobOut packed (n * w / 8) || vobOut full (4 * n) || vobOut sca (n / 32)) 0x0303 <|
    let rp : Region := { base := packed, per := 32 * w, total := n * w / 8 }
    let rf : Region := { base := full, per := 1024, total := 4 * n }
    let rs : Region := { base := sca, per := 8, total := n / 32 }
    .ok { unit := 0, lat := vectorLat a1 op, chunks := ceilDiv n 256
          reads := if quant then [rf] else [rp, rs]
          writes := if quant then [rp, rs] else [rf]
          run := fun vob c =>
            if quant then
              let qs := (blocks32 (chunkCodes vob src 32 n 256 c)).map fun bl => quantise f (bl.map f32)
              ([chunkWrite dst w 256 c (qs.flatMap fun q => q.2.map (·.code)),
                (sca + 8 * c, qs.map fun q => BitVec.ofNat 8 q.1)],
               (qs.flatMap (·.2)).foldl (fun fl r => fl.or (VFlags.ofConv r)) {})
            else
              let xs := chunkCodes vob src w n 256 c
              let cs := xs.zipIdx.map fun (x, j) =>
                fp32.convert {} (mxVal (f.decode x) (Mem.get vob (sca + 8 * c + j / 32)).toNat)
              ([chunkWrite dst 32 256 c (cs.map (·.code))], cs.foldl (fun fl r => fl.or (VFlags.ofConv r)) {}) }
  | _ => .error 0x0301

/-- Formats that DRAIN and VWCVT deliver (R105). -/
def drainFmt (f : Nat) : Bool := f ≤ 4 || f == 8 || f == 9 || f == 10

/-- A container as DRAIN converts it: a copy for WIDE112, else rounded (R50, R107). -/
def drainElem (f : Nat) (rd : Rounding) (anchor : Int) (x : BitVec 128) : Conv :=
  match fmtOf f with
  | some .wide => { code := x.toNat }
  | some fm => wideConvert fm rd anchor x
  | none => { code := 0 }

/-- VWADD, VWADDF, VWREBASE, VWCVT (R104). -/
def planW (k : CoreSt) (a1 : Bool) (op : Nat) (b : BitVec 56) : Plan :=
  let n := fld b 55 44 + 1
  let anchor := sfld b 43 34
  let dst := vobAddr k (fld b 33 23) false 0
  let src := vobAddr k (fld b 22 12) false 0
  let par := vobAddr k (fld b 11 1) false 0
  let df := fld b 11 8
  let rsv := bit b 0 || (op == 0x63 && bit b 11) || (op == 0x66 && !zeroFld b 3 1)
  let dw := if op = 0x66 then widthOf df else 128
  let pb := if op = 0x61 then 16 * n else if op = 0x62 then 4 * n else 0
  faultIf rsv 0x0309 <|
  faultIf (op == 0x66 && !drainFmt df) 0x0301 <|
  faultIf (op == 0x66 && decide (3 < fld b 7 5)) 0x0302 <|
  faultIf (vobOut dst (n * dw / 8) || vobOut src (16 * n) || vobOut par pb && pb != 0) 0x0303 <|
  let rp : List Region :=
    if op = 0x61 then [{ base := par, per := 1024, total := 16 * n }]
    else if op = 0x62 then [{ base := par, per := 256, total := 4 * n }] else []
  .ok { unit := 0, lat := vectorLat a1 op, chunks := ceilDiv n 64
        reads := { base := src, per := 1024, total := 16 * n } :: rp
        writes := [{ base := dst, per := 8 * dw, total := n * dw / 8 }]
        run := fun vob c =>
          let xs := (chunkCodes vob src 128 n 64 c).map (BitVec.ofNat 128)
          let ps := if op = 0x61 then chunkCodes vob par 128 n 64 c
                    else if op = 0x62 then chunkCodes vob par 32 n 64 c else []
          let rs : List Conv := xs.zipIdx.map fun (x, j) =>
            match op with
            | 0x61 => { code := (wideAdd x (BitVec.ofNat 128 (ps.getD j 0))).toNat }
            | 0x62 => { code := (wideAdd x (contribOf anchor (f32 (ps.getD j 0))).c).toNat }
            | 0x63 => { code := (wideRebase anchor (sfld b 10 1) x).toNat }
            | _ => drainElem df { mode := fld b 7 5, sat := bit b 4 } anchor x
          ([chunkWrite dst dw 64 c (rs.map (·.code))], rs.foldl (fun fl r => fl.or (VFlags.ofConv r)) {}) }

/-- VRAND (R112). -/
def planG (k : CoreSt) (b : BitVec 56) : Plan :=
  let n := fld b 55 42 + 1
  let kreg := fld b 40 36
  let dst := vobAddr k (fld b 35 25) (bit b 20) (fld b 24 21)
  faultIf (!zeroFld b 19 0) 0x0309 <|
  faultIf (decide (29 < kreg)) 0x0306 <|
  faultIf (vobOut dst (4 * n)) 0x0303 <|
  .ok { unit := 3, lat := 12, chunks := ceilDiv n 256, reads := []
        writes := [{ base := dst, per := 1024, total := 4 * n }]
        run := fun _ c =>
          ([chunkWrite dst 32 256 c ((List.range (chunkLen n 256 c)).map fun j =>
              let w := (genWord (sreg k kreg) (sreg k (kreg + 1)) (sreg k (kreg + 2)) (256 * c + j)).toNat
              if bit b 41 then toF32 (.fin false (w / 256) (-24)) else w)], {}) }

/-- Whether an entry of a list that is still to enter has FIN (R72). -/
def ListRest.finAhead (l : ListRest) (m : Mem) : Bool :=
  (List.range (l.last + 1 - l.next)).any fun i =>
    let e := Mem.word m (l.addr + 8 * (l.next + i))
    bit e 63 && bit e 46

/-- A tile that will reach the queue without further issue: in CHECK, REPLAY or DONE, or OPEN with its FIN contribution issued (R108). -/
def tileOnItsWay (k : CoreSt) : Bool :=
  k.me.tiles.toList.any (fun t => t.st == .check || t.st == .replay || t.st == .done)
    || k.me.stream.any (·.fin) || k.me.list.any (·.finAhead k.cm.mem)

/-- The conversion of element (m, n) of a tile by DRAIN (R107). -/
def drainConv (k : CoreSt) (b : BitVec 56) (t m n : Nat) : Conv :=
  let d := (vget k.me.tiles t).desc
  let f := fld b 55 52
  let x := accElem k.me.acc t m n
  let rd : Rounding := { mode := fld b 51 49, sat := bit b 48, r := if fld b 51 49 = 4 then srRand k (fld b 31 27) (64 * m + n) else 0 }
  if dFp32 d then
    let v := f32 (x.toNat % 2 ^ 32)
    if f = 0 then { code := x.toNat % 2 ^ 32, nanOut := v.isNan, infOut := v.isInf }
    else match fmtOf f with
      | some fm => fm.convert rd v
      | none => { code := 0 }
  else drainElem f rd (dAnchor d) x

/-- The rows that a DRAIN reads in an a-cycle: eight of a rounded row group, two of a WIDE112 quarter (R106). -/
def drainRows (b : BitVec 56) : Nat := if fld b 55 52 = 10 then 2 else 8

/-- What chunk c of a DRAIN of an entry converts. -/
def drainChunk (k : CoreSt) (b : BitVec 56) (entry : Word) (c : Nat) : List Conv :=
  (List.range (drainRows b * 64)).map fun i => drainConv k b (fld entry 62 59) (drainRows b * c + i / 64) (i % 64)

/-- Whether a DRAIN takes an FP32 tile for WIDE112 output, which faults when it takes the entry (R107, R120). -/
def drainUnfit (k : CoreSt) (b : BitVec 56) (entry : Word) : Bool :=
  fld b 55 52 == 10 && dFp32 (vget k.me.tiles (fld entry 62 59)).desc

/-- DRAIN (R105 to R108) of the queue's head entry; with none, held or VE_DRAIN_EMPTY. -/
def planD (k : CoreSt) (a1 : Bool) (head : Option Word) (b : BitVec 56) : Plan :=
  let f := fld b 55 52
  let rnd := fld b 51 49
  let dst := vobAddr k (fld b 47 37) (bit b 32) (fld b 36 33)
  faultIf (!zeroFld b 20 0) 0x0309 <|
  faultIf (!drainFmt f) 0x0301 <|
  faultIf (f != 10 && decide (4 < rnd)) 0x0302 <|
  faultIf (f != 10 && decide (rnd = 4 ∧ 29 < fld b 31 27)) 0x0306 <|
  match head with
  | none =>
    faultIf (!tileOnItsWay k) 0x0305 <|
    .ok { unit := 4, lat := vectorLat a1 0x78, chunks := 0, reads := [], writes := [], run := fun _ _ => ([], {}) }
  | some entry =>
    let r := fld entry 54 52 + 1
    let w := widthOf f
    let total := r * 512 * w / 8
    let per := drainRows b * 64 * w / 8
    faultIf (!drainUnfit k b entry && vobOut dst total) 0x0303 <|
    .ok { unit := 4, first := 0, lat := vectorLat a1 0x78, chunks := if f = 10 then 4 * r else r, reads := []
          writes := [{ base := dst, per, total }]
          run := fun _ c =>
            let cs := drainChunk k b entry c
            ([(dst + c * per, pack w (cs.map (·.code)))], cs.foldl (fun fl r => fl.or (VFlags.ofConv r)) {}) }

/-- VLD and VST (R115 to R117). -/
def moveAddr (k : CoreSt) (b : BitVec 56) : Nat := areg k (fld b 43 40) + fld b 39 25 * 256

def planM (k : CoreSt) (op : Nat) (b : BitVec 56) : Plan :=
  let rows := fld b 51 44 + 1
  let a := moveAddr k b
  let v := 32 * fld b 24 14
  faultIf (!zeroFld b 55 52 || !zeroFld b 13 0) 0x0309 <|
  faultIf (a % 256 != 0 || decide (cmBytes < a + 256 * rows)) 0x0308 <|
  faultIf (fld b 24 14 % 8 != 0 || vobOut v (256 * rows)) 0x0303 <|
  let reg : Region := { base := v, per := 1024, total := 256 * rows }
  .ok { unit := 5, lat := 3, chunks := ceilDiv rows 4
        reads := if op = 0x7D then [reg] else []
        writes := if op = 0x7C then [reg] else []
        run := fun vob c =>
          if op = 0x7D then ([(a + 1024 * c, Mem.read vob (v + 1024 * c) (min 1024 (256 * rows - 1024 * c)))], {}) else ([], {}) }

/-- The core-memory beats of VLD and VST: four rows an a-cycle (R116, R117). -/
def moveAsks (k : CoreSt) (op : Nat) (b : BitVec 56) : List MemAsk :=
  let rows := fld b 51 44 + 1
  let n := ceilDiv rows 4
  let t := k.sq.clk
  let first := moveAddr k b / 256
  if op ≠ 0x7C ∧ op ≠ 0x7D then []
  else (List.range n).map fun c =>
    let load := op = 0x7C
    { code := 3, seq := c, write := !load, rows := (List.range (min 4 (rows - 4 * c))).map fun r => first + 4 * c + r
      at_ := if load then t + 1 + c else t + 2 + c
      stamps := (if load then [.vob (32 * fld b 24 14 + 1024 * c) (t + 3 + c)] else [])
        ++ if c + 1 = n then [.mov (t + n)] else []
      move := if load then .vld t (moveAddr k b + 1024 * c) (256 * min 4 (rows - 4 * c)) (32 * fld b 24 14 + 1024 * c)
        else .vst t c }

/-- The plan of a vector instruction on a core's registers and, for a DRAIN, a queue entry (R97); an opcode that R97 does not list faults
with VE_RSV_FIELD. -/
def planOf (k : CoreSt) (a1 : Bool) (head : Option Word) (op : Nat) (b : BitVec 56) : Plan :=
  if isLaneOp op ∨ (0x68 ≤ op ∧ op ≤ 0x6D) ∨ (0x70 ≤ op ∧ op ≤ 0x73) then planA k a1 op b
  else match op with
    | 0x60 => planC k b
    | 0x61 | 0x62 | 0x63 | 0x66 => planW k a1 op b
    | 0x64 | 0x65 => planQ k a1 op b
    | 0x74 => planG k b
    | 0x76 => planX k b
    | 0x78 => planD k a1 head b
    | 0x7C | 0x7D => planM k op b
    | _ => .error 0x0309

/-- The plan of a vector instruction at its issue. -/
def vectorPlan (s : State) (c : CoreId) (op : Nat) (b : BitVec 56) : Plan :=
  planOf (s.core c) s.part.isA1 (s.core c).me.ftq.head? op b

/-- The fault of a vector slot at issue (R120). -/
def vectorFault (s : State) (c : CoreId) (op : Nat) (b : BitVec 56) : Option SlotFault :=
  match vectorPlan s c op b with
  | .error code => some (.ve code)
  | .ok _ => none

/-- Unified registers that a vector slot reads (R96, R101, R102, R105, R111, R112, R115). -/
def vectorReads (op : Nat) (b : BitVec 56) : List Nat :=
  let gen (kreg : Nat) : List Nat := [kreg, kreg + 1, kreg + 2]
  if isLaneOp op ∨ (0x68 ≤ op ∧ op ≤ 0x6D) ∨ (0x70 ≤ op ∧ op ≤ 0x73) then
    (if bit b 37 || bit b 36 || bit b 35 then [32 + fld b 41 38] else []) ++ (if bit b 1 then [fld b 6 2] else [])
  else match op with
    | 0x60 => (if bit b 2 || bit b 1 then [47] else []) ++ (if fld b 33 31 = 4 then gen (fld b 7 3) else [])
    | 0x74 => (if bit b 20 then [32 + fld b 24 21] else []) ++ gen (fld b 40 36)
    | 0x76 => if bit b 32 then [32 + fld b 36 33] else []
    | 0x78 => (if bit b 32 then [32 + fld b 36 33] else [])
                ++ (if fld b 55 52 ≠ 10 ∧ fld b 51 49 = 4 then gen (fld b 31 27) else [])
    | 0x7C | 0x7D => [32 + fld b 43 40]
    | _ => []

def vectorDest (op : Nat) (b : BitVec 56) : Option (Nat × Nat) :=
  match op with
  | 0x76 => some (fld b 55 51, 3)
  | 0x78 => if bit b 21 then some (fld b 26 22, 2) else none
  | _ => none

/-- The VOB accesses of a plan issued at a-cycle t. -/
def vobUses (t first : Nat) (chunks : Nat) (rs : List Region) : List VobUse :=
  rs.flatMap fun r => (List.range chunks).map fun c =>
    { lo := (r.chunk c).1, hi := (r.chunk c).2, at_ := t + first + c }

def overlaps (a b : VobUse) : Bool := decide (a.lo < b.hi ∧ b.lo < a.hi)

/-- The chunk orderings that issue waits for: no read and no write of the same bytes fall in one a-cycle (R94, R168). -/
def operandHeld (ve : Ve) (t : Nat) (p : VPlan) : Bool :=
  let rs := vobUses t p.first p.chunks p.reads
  let ws := vobUses t p.lat p.chunks p.writes
  (rs.any fun r => ve.writes.any fun w => overlaps r w && decide (r.at_ ≤ w.at_))
    || (ws.any fun w => ve.reads.any fun r => overlaps w r && decide (w.at_ ≤ r.at_))
    || (ws.any fun w => ve.writes.any fun v => overlaps w v && decide (w.at_ ≤ v.at_))

/-- Holds of a vector slot (R94, R108). -/
def veHolds (s : State) (c : CoreId) (op : Nat) (b : BitVec 56) : List Cause :=
  let k := s.core c
  match vectorPlan s c op b with
  | .error _ => []
  | .ok p =>
    (if k.sq.clk < vget k.ve.unitFree p.unit then [.unit] else [])
      ++ (if operandHeld k.ve k.sq.clk p then [.operand] else [])
      ++ (if op = 0x78 ∧ k.me.ftq.isEmpty then [.drain] else [])

/-- The sticky bits of VE_STATUS that flags set. -/
def VFlags.sticky (f : VFlags) : Word :=
  fw 19 19 (if f.invalid then 1 else 0) ||| fw 18 18 (if f.overflow then 1 else 0) ||| fw 17 17 (if f.divzero then 1 else 0)

/-- The sticky bits of VE_DRAIN_STATUS that a chunk of a DRAIN sets (R109). A WIDE112 copy writes containers, and sets neither NAN_OUT
nor INF_OUT for one with NAN, POS_INF or NEG_INF set (DESIGN CHOICE, log entry 108). -/
def drainSticky (cs : List Conv) : Word :=
  let st (p : Conv → Bool) (i : Nat) : Word := fw i i (if cs.any p then 1 else 0)
  st (·.nanOut) 62 ||| st (·.infOut) 61 ||| st (·.satApplied) 60

/-- DRAIN takes the queue's head entry (R105, R106, R109): the tile drains, the queue advances, VE_DRAIN_STATUS names the tile. The bits
of what it writes, and the count of completed DRAINs, follow as its chunks land (DESIGN CHOICE for the count, log entry 108). -/
def drainEffect (pre : State) (c : CoreId) (b : BitVec 56) (s : State) : State :=
  let k := pre.core c
  match k.me.ftq.head? with
  | none => s
  | some entry =>
    let t := fld entry 62 59
    let r := fld entry 54 52 + 1
    let wide := fld b 55 52 == 10
    let high := fw 63 63 (fld entry 55 55)
    let s := s.modCore c fun k => { k with
      me := { k.me with
        ftq := k.me.ftq.tail
        tiles := vmod k.me.tiles t fun x => { x with st := .draining, freeAt := k.sq.clk + (if wide then 4 * r else r) } }
      ve := { k.ve with
        drnStep := if wide then 4 else 1
        drainStatus := setFld (setFld (k.ve.drainStatus ||| high) 51 48 t) 47 32 (fld entry 47 32)
        drainNow := k.ve.drainNow ||| high } }
    let s := s.setCore c (s.core c).refillQueue
    if bit b 21 then s.writeReg c (fld b 26 22) entry 2 else s

/-- A vector slot issues: its unit is occupied, its VOB accesses are in flight, and its chunks follow (R94). A DRAIN that takes an FP32
tile for WIDE112 output has no effect but its fault, which comes after issue (R107, R120, R145). -/
def vectorEffect (pre : State) (c : CoreId) (op : Nat) (b : BitVec 56) (s : State) : State :=
  match vectorPlan pre c op b with
  | .error _ => s
  | .ok p =>
    let k := pre.core c
    let t := k.sq.clk
    if op = 0x78 ∧ k.me.ftq.head?.any (drainUnfit k b) then
      (s.unitFault c op k.sq.pc.toNat (.ve 0x0301)).raise c 0x0301 5 k.sq.pc.toNat
    else
      let s := s.modVe c fun v => { v with
        unitFree := vset v.unitFree p.unit (t + p.chunks)
        reads := v.reads.filter (fun u => t ≤ u.at_) ++ vobUses t p.first p.chunks p.reads
        writes := v.writes.filter (fun u => t ≤ u.at_) ++ vobUses t p.lat p.chunks p.writes
        flights := v.flights ++ [{ op, bits := b, s := k.sq.s, a := k.sq.a, entry := if op = 0x78 then k.me.ftq.head? else none, at_ := t }] }
      match op with
      | 0x76 => s.modSq c fun q => q.await (fld b 55 51) 3
      | 0x78 => drainEffect pre c b s
      | _ => s

/-! ### Chunks (R93, R94) -/

/-- The plan of an instruction in flight: its registers and its queue entry are those of its issue. -/
def VFlight.plan (f : VFlight) (a1 : Bool) (k : CoreSt) : Plan :=
  planOf { k with sq := { k.sq with s := f.s, a := f.a } } a1 f.entry f.op f.bits

/-- An instruction in flight, changed. -/
def Ve.modFlight (v : Ve) (i : Nat) (f : VFlight → VFlight) : Ve := { v with flights := v.flights.modify i f }

/-- The codes of what a chunk reads are checked (R169): its VOB bytes, or the rows of a DRAIN's tile. -/
def chunkChecked (s : State) (c : CoreId) (f : VFlight) (p : VPlan) (k : State → State) : State :=
  let vob := p.reads.foldr (fun r go s => checked s .vob c (r.chunk f.next).1 (r.chunk f.next).2 go) k
  match f.op, f.entry with
  | 0x78, some e =>
    let m := drainRows f.bits * f.next
    checked s .acc c (accAddr (fld e 62 59) m 0) (accAddr (fld e 62 59) (m + drainRows f.bits) 0) vob
  | _, _ => vob s

/-- The source chunk of instruction i in flight that is due is read, and its results are on their way. A VLD reads core memory
instead. -/
def State.readChunk (s : State) (c : CoreId) (i : Nat) : State :=
  let k := s.core c
  match k.ve.flights[i]? with
  | none => s
  | some f =>
    match f.plan s.part.isA1 k with
    | .error _ => s
    | .ok p =>
      if f.op = 0x7C ∨ p.chunks ≤ f.next ∨ k.sq.clk < f.at_ + p.first + f.next then s
      else chunkChecked s c f p fun s =>
        let (writes, fl) := p.run k.ve.vob f.next
        let drain : Word := match f.op, f.entry with
          | 0x78, some e => drainSticky (drainChunk { k with sq := { k.sq with s := f.s } } f.bits e f.next)
          | _, _ => 0
        let late : VLate := { at_ := if f.op = 0x7D then f.next else f.at_ + p.lat + f.next, writes, sticky := fl.sticky, drain }
        let s := s.modVe c fun v => v.modFlight i fun f => { f with
          next := f.next + 1, late := if f.op = 0x76 then f.late else f.late ++ [late] }
        if f.op = 0x76 then
          s.modSq c fun q => q.takeLate (fld f.bits 55 51) (f.at_ + 3)
            (BitVec.ofNat 64 (Mem.num k.ve.vob (vxsAddr { k with sq := { k.sq with a := f.a } } f.bits) 4))
        else s

/-- The byte that writes put at an address, the last of them. -/
def writtenAt (ws : List (Nat × List Byte)) (a : Nat) : Option Byte :=
  ws.foldl (fun r w => if w.1 ≤ a then (match w.2[a - w.1]? with
    | some b => some b
    | none => r) else r) none

/-- A write whose bytes another instruction writes in the same a-cycle leaves a free byte in each (log entry 4). -/
def clashed (others : List (Nat × List Byte)) (w : Nat × List Byte) : Nat × List Byte :=
  if others.isEmpty then w
  else (w.1, w.2.mapIdx fun i b => match writtenAt others (w.1 + i) with
    | some x => Config.vobClash (w.1 + i) x b
    | none => b)

/-- The results that land in a-cycle `clk`, of one instruction after the other. -/
def landings (clk : Nat) (fs : List VFlight) : List VLate :=
  (fs.foldl (fun (r : List VLate) f =>
    let mine := if f.op = 0x7D then [] else f.late.filter fun x => decide (x.at_ ≤ clk)
    r ++ mine.map fun x => { x with writes := x.writes.map (clashed (r.flatMap (·.writes))) }) [])

/-- Whether an instruction in flight has read its last chunk and landed it. -/
def VFlight.done (f : VFlight) (a1 : Bool) (k : CoreSt) : Bool :=
  f.late.isEmpty && match f.plan a1 k with
    | .ok p => decide (p.chunks ≤ f.next)
    | .error _ => true

/-- The results that land in the present a-cycle are written (R93, R94, R109), without error in the granules they cover (R169), and the
instructions that are done leave; a DRAIN is completed then (R118). -/
def State.landChunks (s : State) (c : CoreId) : State :=
  let k := s.core c
  let ls := landings k.sq.clk k.ve.flights
  let ws := ls.flatMap (·.writes)
  let s := ws.foldl (fun s w => clearErrs s .vob c w.1 (w.1 + w.2.length)) s
  let sticky := ls.foldl (fun x l => x ||| l.sticky) 0
  let drain := ls.foldl (fun x l => x ||| l.drain) 0
  let rest := k.ve.flights.map fun f => if f.op = 0x7D then f else { f with late := f.late.filter fun x => decide (k.sq.clk < x.at_) }
  let gone := rest.filter fun f => f.done s.part.isA1 k
  s.modVe c fun v => { v with
    vob := applyWrites v.vob ws
    sticky := v.sticky ||| sticky, stickyNow := v.stickyNow ||| sticky
    drainStatus := satAdd (v.drainStatus ||| drain) 31 0 (gone.filter fun f => f.op == 0x78).length
    drainNow := v.drainNow ||| drain
    flights := rest.filter fun f => !f.done s.part.isA1 k }

/-- The chunks of an a-cycle: every read sees the VOB as it stood before the a-cycle's writes (R93). -/
def State.vectorTick (s : State) (c : CoreId) : State :=
  let n := (s.core c).ve.flights.length
  if n = 0 then s else ((List.range n).foldl (fun s i => s.readChunk c i) s).landChunks c

/-- VE_STATUS (R118): sticky bits, the row groups that the running DRAIN has still to read, busy units. -/
def veStatus (k : CoreSt) : Word :=
  let free := vget k.ve.unitFree 4
  let left := if k.sq.clk < free then ceilDiv (free - k.sq.clk) k.ve.drnStep else 0
  let busy := (List.range 6).foldl (fun a u => a + if k.sq.clk < vget k.ve.unitFree u then 2 ^ (5 - u) else 0) 0
  k.ve.sticky ||| fw 15 12 (min left 8) ||| fw 5 0 busy

end Sys2Proof.Machine
end

