-- ==== Sys2Proof/Machine/Cycles.lean ====
section
/-! DEFINITION. What an a-cycle does at a core: its column's ports, the accesses served and what they move, the vector and matrix engines,
and time (R83 to R86, R94, R154 to R159, R178). -/

namespace Sys2Proof.Machine

/-! ### Served accesses (R156, R158) -/

/-- A VLD beat has been read: its bytes land in the VOB two a-cycles later (R116). -/
def Ve.loadBeat (v : Ve) (t vob clk : Nat) (data : List Byte) : Ve :=
  { v with flights := v.flights.map fun f =>
      if f.op = 0x7C ∧ f.at_ = t then { f with next := f.next + 1, late := f.late ++ [{ at_ := clk + 2, writes := [(vob, data)] }] }
      else f }

/-- The bytes of a VST beat, which the instruction read from the VOB (R116). -/
def Ve.storeBeat (v : Ve) (t beat : Nat) : List (Nat × List Byte) :=
  (v.flights.filter fun f => f.op == 0x7D && f.at_ == t).flatMap fun f => (f.late.filter fun x => x.at_ == beat).flatMap (·.writes)

/-- A VST beat is done. -/
def Ve.dropBeat (v : Ve) (t beat : Nat) : Ve :=
  { v with flights := v.flights.map fun f =>
      if f.op = 0x7D ∧ f.at_ = t then { f with late := f.late.filter fun x => x.at_ != beat } else f }

/-- A narrow write has taken its row: the row is checked, and the word is written two a-cycles later (R154). -/
def CoreSt.narrowWrite (k : CoreSt) (a : MemAsk) : CoreSt :=
  k.postAs a.id [{ a with seq := a.seq + 1, narrow := false, rows := [], at_ := k.sq.clk + 2, stamps := [] }]

/-- A row of a list comes to the engine (R71, R86). -/
def Me.listRow (me : Me) (data : List Byte) : Me :=
  { me with list := me.list.map fun l => { l with rows := l.rows ++ data } }

/-- What a served access of a core does (R158). `old` and `written` are tier memory before the a-cycle's unit writes, and their bytes. -/
def State.perform (s : State) (c : CoreId) (old : Mem) (written : List (Nat × Nat)) (a : MemAsk) : State :=
  let clk := (s.core c).sq.clk
  match a.move with
  | .idle => s
  | .load reg addr => cmChecked s c addr 8 fun s => a.stamps.foldl (fun s x => match x with
      | .reg _ t => s.modSq c fun q => q.takeLate reg.toNat t (Mem.word (s.core c).cm.mem addr)
      | _ => s) s
  | .store addr data =>
    if a.narrow then cmChecked s c addr 8 fun s => s.modCore c (·.narrowWrite a)
    else (clearErrs s .cm c (addr / 32 * 32) (ceilTo (addr + data.length) 32)).cmWrite c addr data
  | .vld t addr len vob => cmChecked s c addr len fun s => s.modVe c (·.loadBeat t vob clk (s.cmRead c addr len))
  | .vst t beat =>
    let ws := (s.core c).ve.storeBeat t beat
    (ws.foldl (fun s w => (clearErrs s .cm c w.1 (w.1 + w.2.length)).cmWrite c w.1 w.2) s).modVe c (·.dropBeat t beat)
  | .descs addr first count => cmChecked s c addr 256 fun s => s.modCore c (·.loadDescs addr first count)
  | .image .wstream run num addr n => sourceRead s c .tier addr n old written fun data s =>
      s.modMe c (·.imageRead .wstream run num data)
  | .image .cm run num addr n => cmChecked s c addr n fun s => s.modMe c (·.imageRead .cm run num (s.cmRead c addr n))
  | .scales path run row => cmChecked s c (256 * row) 256 fun s => s.modMe c (·.scalesRead path run row (s.cmRead c (256 * row) 256))
  | .listRow addr => cmChecked s c addr (if a.rows.isEmpty then 0 else 256) fun s => s.modMe c (·.listRow (s.cmRead c addr 256))
  | .sendRows .. | .ringHead .. | .freePad .. | .ringRead .. | .copyRow .. | .freeRecord .. | .ringRow .. => channelServed s c a
  | .resultRow .. | .roundDone .. | .regionRead .. | .combine .. => queueServed s c a
  | .dmaBeat .. | .dmaRead .. | .dmaAsk .. | .dmaZero .. | .dmaStop .. | .dmaWrite .. | .dmaLeave .. | .dmaList .. =>
    dmaServed s c a.id old written a.move

/-- The flat tier bytes that a served access writes. -/
def tierWritten (s : State) (c : CoreId) (a : MemAsk) : List (Nat × Nat) :=
  match a.move with
  | .dmaWrite q num .tier addr row n => match findDesc s c q num with
    | some d => [(taFlat addr, (d.take row n).length)]
    | none => []
  | _ => []

/-- The accesses that an a-cycle serves move their data, writes before reads (R157, R158). -/
def State.performAll (s : State) (c : CoreId) (served : List MemAsk) : State :=
  let old := s.tier
  (served.foldl (fun (x : State × List (Nat × Nat)) a => (x.1.perform c old x.2 a, x.2 ++ tierWritten x.1 c a)) (s, [])).1

/-! ### The column port below a core (R178 to R180) -/

/-- A guarded grant keeps its side of the port from every scheduled request (R180). -/
def State.guardPorts (s : State) (c : CoreId) : State :=
  let uses (sd : Side) : List (Nat × PortUse) :=
    let p := s.port c.toNat sd
    let clk := (s.core c).sq.clk
    if p.guarded && p.beating clk then
      [(clk, { port := sidePort sd, unit := 0, row := 0, code := 14, write := sd == .write })] else []
  match uses .read ++ uses .write with
  | [] => s
  | us => s.modCm c fun m => { m with inUse := m.inUse ++ us }

/-- The arbiter number of a scheduled request of the core above a port (R266): 0 for a WSTREAM load, 1 + q for DMA queue q. -/
def portRequester (a : MemAsk) : Nat := if a.code = 0 then 0 else a.code - 7

/-- The side of a port that an access asks for. -/
def MemAsk.side (a : MemAsk) : Option Side :=
  match a.port with
  | .tierRead => some .read
  | .tierWrite => some .write
  | _ => none

/-- The port's counts of a scheduled request that is served, or held (R178, R180, R271). -/
def countPort (col : Nat) (held : Bool) (s : State) (a : MemAsk) : State :=
  match a.side with
  | none => s
  | some sd =>
    let kind := sideKind sd
    let r := portRequester a
    if held then
      let s := s.colStat col 63 48 1
      let s := if (s.port col sd).guarded then s.colStat col 31 16 1 else s
      { s with pn := waitArb s.pn kind col r }
    else { s with pn := servedArb (countArb s.pn kind col r fun x => { x with grants := sat32 (x.grants + 1) }) kind col r }

/-! ### The freeze of a replay (R83) -/

/-- Whether a write of a DMA queue has its source rows, so that it is not held at a beat boundary. -/
def CoreSt.landing (k : CoreSt) (a : MemAsk) : Bool :=
  (vget k.dma.queues (a.code - 8)).descs.any fun d => d.ask == a.id && a.landing d

/-- An a-cycle of the freeze: DMA queues hold at their next beat, and the array waits (R83). -/
def CoreSt.freeze (k : CoreSt) : CoreSt :=
  let late (a : MemAsk) : Bool := decide (8 ≤ a.code ∧ a.code ≤ 11) && !k.landing a
  let run := k.me.stream.isSome || k.me.list.isSome
  { k with
    cm := { k.cm with asks := k.cm.asks.map fun a => if late a then { a with at_ := a.at_ + 1 } else a }
    me := if run then { k.me with
        stream := k.me.stream.map fun r => { r with at_ := r.at_ + 1 }
        list := k.me.list.map fun l => { l with at_ := l.at_ + 1 }
        mFree := k.me.mFree + 1, arrayUntil := k.me.arrayUntil + 1 } else k.me }

/-! ### Time -/

/-- Whether the ports below a core have no asynchronous request. -/
def State.portsIdle (s : State) (c : CoreId) : Bool :=
  (s.port c.toNat .read).queue.isEmpty && (s.port c.toNat .write).queue.isEmpty

/-- Nothing at a core is timed but what `CoreSt.bulk` moves. -/
def State.still (s : State) (c : CoreId) : Bool := (s.core c).still && s.portsIdle c

/-- What asks in the a-cycle is known: the freeze, the rows of combining queues, the ring rows of CH.READ. -/
def CoreSt.prepare (k : CoreSt) : CoreSt := ((if k.frozen then k.freeze else k).queueTick).aimRings

/-- The accesses of the a-cycle are served or held, and move their data. -/
def State.serve (s : State) (c : CoreId) : State :=
  let (k, served, held) := (s.core c).arbitrate
  let s := s.setCore c k
  let s := held.foldl (countPort c.toNat true) (served.foldl (countPort c.toNat false) s)
  s.performAll c served

/-- The engines' part of an a-cycle (R67, R72, R94). -/
def State.engines (s : State) (c : CoreId) : State :=
  let s := s.vectorTick c
  if (s.core c).frozen then s else (s.streamTick c).modCore c (·.listTick)

/-- One a-cycle at a core, and the turn to the next. -/
def State.tick (s : State) (c : CoreId) : State :=
  let s := ((portTick s c.toNat).modCore c (·.prepare)).guardPorts c
  let s := (s.serve c).engines c
  (s.modCore c fun k => k.sweepDma.bulk 1).turn c

/-- `n` a-cycles pass at a core. In a fail-stop none does (R375), nor in a step hold (R432). -/
def State.pass (s : State) (c : CoreId) : Nat → State
  | 0 => s
  | n + 1 =>
    if s.cu.failstop || s.ck.hold.isSome then s
    else if s.still c then s.modCore c fun k => k.sweepDma.bulk (n + 1)
    else (s.tick c).pass c n

/-- An instruction's accesses are to be served. -/
def State.ask (s : State) (c : CoreId) (asks : List MemAsk) : State := s.modCore c (·.post asks)

/-! ### Replay (R83 to R85) -/

/-- A tile is zeroed for its replay (R83). -/
def State.zeroTile (s : State) (c : CoreId) (t : Nat) : State :=
  (clearErrs s .acc c (accAddr t 0 0) (accAddr (t + 1) 0 0)).modMe c fun me => { me with
    acc := Mem.write me.acc (accAddr t 0 0) (List.replicate (accAddr (t + 1) 0 0 - accAddr t 0 0) 0)
    tiles := vmod me.tiles t fun x => { x with lanes := [] } }

/-- The reloads of a replay at the core's column port, asynchronous requests of number 8 (R83, R177, R266). -/
def countReloads (s : State) (c : CoreId) (log : List Contribution) : State :=
  let n := (log.filter fun r => match r.source with
    | some x => x.path == .wstream
    | none => false).length
  (List.range n).foldl (fun s _ => { s with pn := grantArb s.pn 1 c.toNat 8 }) s

/-- TILE_REPLAY (R83 to R85, R110): once the pending write beats have landed, the records are streamed again, the freeze counts, and the
check is run again. A replay that finds a source changed fails (log entry 110). The resident sets are then loaded again. -/
def tileReplay (c : CoreId) (t : BitVec 3) (s : State) : State :=
  let k := s.core c
  let tile := vget k.me.tiles t.toNat
  if tile.st ≠ .replay ∨ !k.me.pendWs.isEmpty ∨ !k.me.pendCm.isEmpty ∨ s.ck.hold.isSome then s
  else
    let n := replayCycles tile
    let active := k.me.active
    let s := (countReloads s c tile.log).modCore c fun k => { k with
      me := { k.me with replayCyc := satWord k.me.replayCyc n }
      sq := k.sq.deviate 0x14 n }
    replayRecords c t.toNat tile.log true (fun ok s =>
      if ok && tilePasses (s.core c).me t.toNat then
        active.reload s c fun active s =>
          (s.core c).me.stirrup.reload s c fun stirrup s =>
            (s.modMe c fun me => { me with active, stirrup }).modCore c (·.tilePass t.toNat)
      else checkFailed (s.modMe c fun me => { me with active }) c t.toNat) ((s.pass c n).zeroTile c t.toNat)

def execTileReplay (c : CoreId) (t : BitVec 3) (s : State) : Res := live s (.next (tileReplay c t s))

/-! ### Hold limits (R233, R244) -/

/-- `n` further held a-cycles of a credit or contribution hold, all counted (R139, R233, R244). -/
def CoreSt.countHeld (k : CoreSt) (h : CqHold) (n : Nat) : CoreSt :=
  let cq := match h with
    | .credit => { k.cq with devCnt := satAdd k.cq.devCnt 63 48 n }
    | .contrib => { k.cq with devCnt := satAdd k.cq.devCnt 47 32 n }
    | .flow => { k.cq with devCnt := satAdd k.cq.devCnt 31 16 n }
  { k with cq, sq := if h = .flow ∨ n = 0 then k.sq else k.sq.deviate 0x13 n }

/-- The word of the C slot of the bundle that waits, when it is still held: its hold and its endpoint or handle. -/
def CoreSt.waitingHold (k : CoreSt) : Option (CqHold × Nat) :=
  match k.sq.bundle.find? fun w => w.slot == 7 with
  | some w =>
    if k.sq.waiting then (channelHold k w.opcode.toNat w.bits).map fun h => (h, cIdx w.opcode.toNat w.bits) else none
  | none => none

/-- A hold reached its limit: CQ_CREDIT_TIMEOUT in the C slot of the held bundle (R233, R244, R252). -/
def creditTimeout (s : State) (c : CoreId) (idx : Nat) : State :=
  let bundle := (s.core c).sq.pc
  (s.modCq c fun q => { q with holdStart := none }).cqRaise c 0x0609 0 idx bundle

/-- CREDIT_HOLD_TIMEOUT (R233, R244): a credit or contribution hold that still stands lasts to its limit. -/
def creditHoldTimeout (c : CoreId) (s : State) : State :=
  let k := s.core c
  match k.cq.holdStart, k.waitingHold with
  | some (t, h), some (g, idx) =>
    if h = .flow ∨ g ≠ h ∨ k.sq.st ≠ .run ∨ s.ck.hold.isSome then s
    else
      let n := t + creditLimit k - k.sq.clk
      let s := (s.modCore c (·.countHeld h n)).pass c n
      if s.cu.failstop then s else (creditTimeout s c idx).pass c 1
  | _, _ => s

def execCreditHoldTimeout (c : CoreId) (s : State) : Res := live s (.next (creditHoldTimeout c s))

/-- FLOW_HOLD_TIMEOUT (R233): the window of CQ_FLOW_LIMIT ends with the hold in place. At FLOW_MS = 0 there is no limit. -/
def flowHoldTimeout (c : CoreId) (s : State) : State :=
  let k := s.core c
  match k.cq.holdStart, k.waitingHold with
  | some (_, .flow), some (.flow, idx) => if k.cq.flowLimit = 0 ∨ k.sq.st ≠ .run then s else creditTimeout s c idx
  | _, _ => s

def execFlowHoldTimeout (c : CoreId) (s : State) : Res := live s (.next (flowHoldTimeout c s))

/-! ### Events at the end of a wait -/

/-- An event that comes when `n` a-cycles have passed at a core (log entry 109). -/
def waited (c : CoreId) (n : Nat) (f : State → State) (s : State) : Res :=
  live s (let t := s.pass c n; live t (.next (f t)))

def execPageMapLookup (c : CoreId) (q : BitVec 2) (n : Nat) (s : State) : Res := waited c n (pageMapLookup c q) s

def execColumnPortGuard (col : BitVec 8) (sd : Side) (n : Nat) (s : State) : Res := waited col n (columnPortGuard col sd) s

def execAsyncRowGuard (w : NetPlace) (n : Nat) (s : State) : Res := waited (placeCore w) n (asyncRowGuard w) s

end Sys2Proof.Machine
end

