-- ==== Sys2Proof/Machine/Tollgate.lean ====
section
/-! DEFINITION. Tollgates: arrivals, frames, release and its notice, the weight latch, expiry and control (R136, R223,
R248 to R253, R291, R305, R307). -/

namespace Sys2Proof.Machine

/-! ### Fields (R253) -/

def Tollgate.en (t : Tollgate) : Bool := bit t.cfg 63
def Tollgate.hold (t : Tollgate) : Bool := bit t.cfg 61
def Tollgate.npeer (t : Tollgate) : Nat := fld t.cfg 59 56

/-- Whether a core is a member. -/
def Tollgate.member (t : Tollgate) (c : CoreId) : Bool := bit (vget t.mask (c.toNat / 64)) (c.toNat % 64)

def coreIds : List CoreId := (List.range 256).map fun i => BitVec.ofNat 8 i

def Tollgate.members (t : Tollgate) : List CoreId := coreIds.filter t.member

/-- Whether every member has arrived. -/
def Tollgate.allIn (t : Tollgate) : Bool := t.members.all fun c => bit t.arrived c.toNat

/-- Service ID and tollgate of peer j. -/
def Tollgate.peerOf (t : Tollgate) (j : Nat) : Nat × Nat :=
  let w := vget t.peer (j / 2)
  if j % 2 = 0 then (fld w 31 16, fld w 15 8) else (fld w 63 48, fld w 47 40)

/-- Number of bits set below n. -/
def popcount {w : Nat} (v : BitVec w) (n : Nat) : Nat := ((List.range n).filter fun i => bit v i).length

def TgState.code : TgState → Nat
  | .idle => 0
  | .gathering => 1
  | .expired => 2

/-- CQ_TG_STATE. -/
def tgStateWord (t : Tollgate) : Word :=
  fw 63 62 t.st.code ||| fw 61 46 t.round.toNat ||| fw 45 37 (popcount t.arrived 256) ||| fw 36 33 (popcount t.peersIn 8)
    ||| fw 32 32 (if t.admOk then 1 else 0) ||| fw 31 0 t.releaseNs.toNat

def State.tg (s : State) (n : Nat) : Tollgate := vget s.tgs n

def State.modTg (s : State) (n : Nat) (f : Tollgate → Tollgate) : State := { s with tgs := vmod s.tgs n f }

/-- The sections of the loaded program for this package (R422). -/
def State.sections (s : State) : Option ProgSections :=
  match s.prog with
  | some p => p.sections.lookup s.svc
  | none => none

/-- Whether a tollgate is a step-start tollgate of the loaded program (R288). -/
def State.stepStart (s : State) (n : BitVec 8) : Bool :=
  match s.sections with
  | some p => p.stepStartTgs.contains n
  | none => false

/-- Whether a tollgate is a latch tollgate (R307). -/
def State.isLatch (s : State) (n : Nat) : Bool := bit (vget s.ws.latchTgs (n / 64)) (n % 64)

/-! ### Arrivals (R136, R248, R250) -/

/-- A tollgate fault of a core (R248): slot B, the bundle of the TG.ARRIVE, and the tollgate's number. -/
def tgRaise (s : State) (c : CoreId) (tg : BitVec 8) (code : Nat) (bundle : BitVec 13) : State :=
  let s := s.modCq c fun q => { q with fault := firstFault q.fault (cqFaultWord code 0 0 tg.toNat bundle.toNat) }
  s.raise c code 2 bundle.toNat

/-- The ARRIVED frames of a round (R250). -/
def sendArrived (s : State) (n : BitVec 8) : State :=
  let t := s.tg n.toNat
  (List.range t.npeer).foldl (fun s j =>
    let (svc, tg) := t.peerOf j
    s.send { kind := .tgArrived, vc := 3, dsad := true, ssad := true, dstSvc := BitVec.ofNat 16 svc
             dstEp := BitVec.ofNat 8 tg, srcEp := n, fabric := true
             arg := fw 63 48 t.round.toNat ||| fw 47 32 s.ws.latchWgen.toNat ||| fw 31 24 n.toNat }) s

/-- TOLLGATE_ARRIVAL (R248): the core's oldest arrival on its way to the tollgate reaches it and is judged. -/
def tollgateArrival (c : CoreId) (tg : BitVec 8) (s : State) : State :=
  match (s.core c).sq.tgFly.find? (fun x => x.1 == tg) with
  | none => s
  | some (_, bundle) =>
    let s := s.modSq c fun q => { q with tgFly := q.tgFly.erase (tg, bundle) }
    let t := s.tg tg.toNat
    if !t.en || !t.member c then tgRaise s c tg 0x060B bundle
    else if t.st = .expired then tgRaise s c tg 0x060D bundle
    else if bit t.arrived c.toNat then tgRaise s c tg 0x060C bundle
    else
      let s := s.modTg tg.toNat fun t => { t with st := .gathering, arrived := t.arrived ||| 1#256 <<< c.toNat }
      if (s.tg tg.toNat).allIn then sendArrived s tg else s

def execTollgateArrival (c : CoreId) (tg : BitVec 8) (s : State) : Res := live s (.next (tollgateArrival c tg s))

/-- The peer that a frame comes from. -/
def Tollgate.peerIndex (t : Tollgate) (p : Pkt) : Option Nat :=
  (List.range t.npeer).find? fun j => t.peerOf j == (p.srcSvc.toNat, fld p.arg 31 24)

/-- TG_ARRIVED_FRAME (R250): a frame of a peer tollgate. -/
def tgArrivedFrame (p : Pkt) (s : State) : State :=
  if p.kind ≠ .tgArrived then s
  else arrive s p fun s =>
    let t := s.tg p.dstEp.toNat
    let wgen := BitVec.ofNat 16 (fld p.arg 47 32)
    match t.peerIndex p with
    | none => s
    | some j =>
      if !t.en || t.st == .expired then s
      else if fld p.arg 63 48 = t.round.toNat then
        if bit t.peersIn j then s
        else s.modTg p.dstEp.toNat fun t => { t with st := .gathering, peersIn := t.peersIn ||| 1#8 <<< j, frameWgen := wgen }
      else if fld p.arg 63 48 = (t.round + 1).toNat then
        s.modTg p.dstEp.toNat fun t => { t with nextIn := t.nextIn ||| 1#8 <<< j, nextWgen := wgen }
      else s

def execTgArrivedFrame (p : Pkt) (s : State) : Res := live s (.next (tgArrivedFrame p s))

/-! ### Generations at a latch (R304, R305, R307) -/

/-- The generation of the step that a tollgate releases (R305): the start signal's, or the ARRIVED frame's. A tollgate
with neither belongs to the step in progress (log entry 29). -/
def releasedWgen (s : State) (t : Tollgate) : BitVec 16 :=
  if bit t.cfg 60 then t.admWgen else if t.npeer ≠ 0 then t.frameWgen else s.ws.stepWgen

/-- The entry of a generation that is LIVE or PINNED. -/
def State.genEntry (s : State) (wgen : BitVec 16) : Option WsGen :=
  s.ws.gens.toList.find? fun g => g.wgen == wgen && 2 ≤ g.st.toNat

/-- Whether the loaded program places any chunk of a set on this package (R299). -/
def State.keepsSet (s : State) (set : Nat) : Bool :=
  match s.sections with
  | some p => p.placement.any fun e => e.toNat / 2 ^ 124 == set
  | none => false

/-- Whether the copy of a set that an entry selects is ACTIVE for it (R307, R309). A copy that an INPLACE load is yet to
write is not. -/
def copyReady (s : State) (g : WsGen) (set : Nat) : Bool :=
  let x := vget s.ws.sets set
  let one := bit g.sel set
  let st := if one then x.copy1 else x.copy0
  let l := s.ws.load
  st == 3 && !(g.inplace && l.set.toNat == set && l.wgen == g.wgen && !l.dual && x.wgen0 != g.wgen)

/-- Whether a step of a generation may pass a latch tollgate of this member (R307). -/
def latchReady (s : State) (wgen : BitVec 16) : Bool :=
  match s.genEntry wgen with
  | none => false
  | some g => (List.range 16).all fun i => !(s.keepsSet i) || (vget s.ws.sets i).mode == 0 || copyReady s g i

/-- A weight control message to a member (R301, R330). -/
def wsCtrl (s : State) (dst : BitVec 16) (msg : Nat) (wgen : BitVec 16) (set : Nat) (chunk reason : Nat) : Pkt :=
  { kind := .wsCtrl, vc := 4, dsad := true, ssad := true, dstUnit := 2, srcUnit := 2, fabric := true, dstSvc := dst, srcSvc := s.svc
    arg := fw 63 56 msg ||| fw 55 40 wgen.toNat ||| fw 39 36 set ||| fw 35 16 chunk ||| fw 15 8 reason }

/-- A member's copy drains for an INPLACE load (R309): it is LOADING, and DRAINED goes to the reader. -/
def drainCopy (s : State) : State :=
  let l := s.ws.load
  let s : State := { s with ws := { s.ws with
    load := { l with phase := 3 }
    sets := vmod s.ws.sets l.set.toNat fun x => if s.keepsSet l.set.toNat then { x with copy0 := 1 } else x } }
  if l.reader then { s with ws := { s.ws with load := { s.ws.load with drained := s.svc :: s.ws.load.drained } } }
  else s.send (wsCtrl s l.readerSvc 4 l.wgen l.set.toNat 0 0)

/-- A latch release is withheld (R307): HOLD is set and counted. It drains an INPLACE load of the step's generation (R309). -/
def withhold (s : State) (tg : BitVec 8) (wgen : BitVec 16) : State :=
  let s := s.modTg tg.toNat fun t => { t with cfg := setFld t.cfg 61 61 1 }
  let s : State := { s with ws := { s.ws with
    stat := satAdd s.ws.stat 15 0 1
    withheld := (tg, wgen) :: s.ws.withheld } }
  let l := s.ws.load
  if l.wgen = wgen ∧ !l.dual ∧ l.went ∧ l.phase = 2 then drainCopy s else s

/-- HOLD of the withheld tollgates clears where the step's copies have become ACTIVE (R307). -/
def releaseWithheld (s : State) : State :=
  s.ws.withheld.foldl (fun s x =>
    if latchReady s x.2 then
      let s := s.modTg x.1.toNat fun t => { t with cfg := clrFld t.cfg 61 61 }
      { s with ws := { s.ws with withheld := s.ws.withheld.erase x } }
    else s) s

/-- Every copy that no entry selects becomes RETIRED (R304). A copy that is being written keeps its state. -/
def retireCopies (s : State) : State :=
  let used := s.ws.gens.toList.filter fun g => g.st != 0
  { s with ws := { s.ws with sets := s.ws.sets.mapIdx fun i x => { x with
    copy0 := if x.copy0 = 3 ∧ !(used.any fun g => !bit g.sel i) then 0 else x.copy0
    copy1 := if x.copy1 = 3 ∧ !(used.any fun g => bit g.sel i) then 0 else x.copy1 } } }

/-- A generation entry becomes FREE. -/
def freeGen (s : State) (wgen : BitVec 16) (st : BitVec 2) : State :=
  retireCopies { s with ws := { s.ws with gens := s.ws.gens.map fun g => if g.st = st ∧ g.wgen = wgen then {} else g } }

/-- The latch of a release (R307). A retired generation whose last step is now complete is FREE (R304, log entry 39). -/
def latch (s : State) (tg : BitVec 8) (wgen : BitVec 16) : State :=
  match s.genEntry wgen with
  | none => s
  | some g =>
    let s : State := { s with ws := { s.ws with latchWgen := wgen, latchSel := g.sel, latchTg := tg, latches := s.ws.latches + 1 } }
    match s.ws.gens.toList.find? (fun g => g.retiring && g.wgen != wgen) with
    | some g => freeGen s g.wgen 3
    | none => s

/-! ### Release (R249) -/

/-- A staged milepost at the notice of a PASS release (R223). -/
def renumber (s : State) (c : CoreId) : State :=
  let q := (s.core c).cq
  let idle := q.send.toList.all (fun e => e.st == .closed) && q.recv.toList.all (fun e => e.st == .closed)
    && q.handles.toList.all (fun h => !h.valid)
  if !q.mpPending then s
  else if q.mpStaged = q.mpCurrent ∨ idle then s.modCq c fun q => { q with mpCurrent := q.mpStaged, mpPending := false }
  else s.cqRaise c 0x0602 0 0 q.mpBundle

/-- `n` a-cycles of a release wait (R136, R149). -/
def State.waitRelease (s : State) (c : CoreId) (n : Nat) : State :=
  (s.modSq c fun q => { q with releaseCyc := satWord q.releaseCyc n }).pass c n

/-- The release notice at a member (R223, R249): a core that waits has waited through r + 3 when it comes, in r + 4, and goes on at
r + 5 unless its renumbering faults. -/
def notice (s : State) (c : CoreId) (tg : BitVec 8) (pass : Bool) : State :=
  let q := (s.core c).sq
  let turn (s : State) : State := if pass then renumber s c else s
  match q.release with
  | some (x, _) =>
    if x ≠ tg then turn s
    else
      let free (s : State) : State := s.modSq c fun q => { q with release := none, holds := 0 }
      if q.st ≠ .run then turn (free s)
      else
        let s := turn (s.waitRelease c 4)
        if (s.core c).sq.st = .run then free (s.waitRelease c 1) else s.pass c 1
  | none => turn s

/-- The deviation report of a step-start release (R291). -/
def deviationReport (s : State) (n : BitVec 8) (round : BitVec 16) : State :=
  let total := fld s.pn.devSummary 46 0
  let s' : State := { s with fsvc := { s.fsvc with lastStep := some (n, round), lastTotal := total } }
  if s.fsvc.lastTotal < total then
    s'.report 0x23 (leBytes 2 round.toNat ++ [n, 0] ++ wordBytes s.pn.devSummary)
  else s'

/-- Whether a tollgate may release (R249). -/
def Tollgate.mayRelease (t : Tollgate) : Bool :=
  t.en && t.st == .gathering && t.allIn && popcount t.peersIn t.npeer == t.npeer && !t.hold && (!bit t.cfg 60 || t.admOk)

/-- TOLLGATE_RELEASE (R249): when every condition holds the tollgate releases, or is withheld for weights. In a step hold the tollgates
stand still (R432). -/
def tollgateRelease (tg : BitVec 8) (s : State) : State :=
  let t := s.tg tg.toNat
  let wgen := releasedWgen s t
  if !t.mayRelease || s.ck.hold.isSome then s
  else if s.isLatch tg.toNat && !latchReady s wgen then withhold s tg wgen
  else
    let s := s.modTg tg.toNat fun t => { t with
      st := if t.nextIn = 0 then .idle else .gathering
      round := t.round + 1, arrived := 0, peersIn := t.nextIn, frameWgen := t.nextWgen, nextIn := 0, admOk := false
      releaseNs := BitVec.ofNat 32 s.now.toNat }
    let s := if s.isLatch tg.toNat then latch s tg wgen else s
    let s := if s.stepStart tg then
        deviationReport { s with ws := { s.ws with stepWgen := wgen } } tg (s.tg tg.toNat).round
      else s
    t.members.foldl (fun s c => notice s c tg (bit t.cfg 62)) s

def execTollgateRelease (tg : BitVec 8) (s : State) : Res := live s (.next (tollgateRelease tg s))

/-! ### Expiry and control (R251, R253) -/

/-- Whether a GATHERING tollgate still waits for a member or a peer. -/
def Tollgate.waits (t : Tollgate) : Bool := !t.allIn || popcount t.peersIn t.npeer != t.npeer

/-- TOLLGATE_EXPIRY (R251): the window of a round ends with a member or peer missing; the members held fault. -/
def tollgateExpiry (tg : BitVec 8) (s : State) : State :=
  let t := s.tg tg.toNat
  if t.st ≠ .gathering ∨ !t.waits then s
  else
    let s := s.modTg tg.toNat fun t => { t with st := .expired }
    t.members.foldl (fun s c =>
      match (s.core c).sq.release with
      | some (x, bundle) => if x = tg ∧ bit t.arrived c.toNat then tgRaise s c tg 0x060D bundle else s
      | none => s) s

def execTollgateExpiry (tg : BitVec 8) (s : State) : Res := live s (.next (tollgateExpiry tg s))

/-- Address of a tollgate register (R253). -/
def tgAddr (n : BitVec 8) (off : Nat) : Nat := 0x0401000000 + 128 * n.toNat + off

/-- CQ_TG_CTRL.RESET (R251). -/
def tgReset (n : BitVec 8) (s : State) : Status × State :=
  if (s.tg n.toNat).st ≠ .expired then (.refused .state, s)
  else (.ok, s.modTg n.toNat fun t => { t with st := .idle, arrived := 0, peersIn := 0, nextIn := 0 })

def execCqTgCtrlReset (tg : BitVec 8) (s : State) : Res := .next (s.mgmtOp (tgAddr tg 0x50) (tgReset tg))

/-- CQ_TG_CFG written (R253): while GATHERING only HOLD may change. Reserved bits keep zero. -/
def tgCfgWrite (n : BitVec 8) (v : Word) (s : State) : Status × State :=
  let t := s.tg n.toNat
  let v := v &&& 0xFFFFFF0000000000#64
  let onlyHold := setFld v 61 61 0 == setFld t.cfg 61 61 0
  if 8 < fld v 59 56 then (.refused .range, s)
  else if t.st = .gathering ∧ !onlyHold then (.refused .busy, s)
  else (.ok, s.modTg n.toNat fun t => { t with cfg := v })

def execCqTgCfgWrite (tg : BitVec 8) (v : Word) (s : State) : Res := .next (s.mgmtOp (tgAddr tg 0) (tgCfgWrite tg v))

end Sys2Proof.Machine
end

