-- ==== Sys2Proof/Machine/CoreMem.lean ====
section
/-! DEFINITION. The async port of core memory, its guard, the async mask, the scrub and management access to core memory
(R160 to R165, R169 to R171). -/

namespace Sys2Proof.Machine

/-- Address of a register of a core's window: block 0 sequencer, 1 core memory, 2 matrix, 3 vector, 4 CQ, 5 DMA (R149). -/
def coreAddr (c : CoreId) (block off : Nat) : Nat := 0x1000000000 + c.toNat * 2 ^ 24 + block * 2 ^ 20 + off

/-- A write to a register of a core's window, and its completion: a core that is fused off refuses it (R19, R426). -/
def State.coreOp (s : State) (c : CoreId) (block off : Nat) (f : State → Status × State) : State :=
  s.mgmtOp (coreAddr c block off) fun s => if s.fusedOff c then (.refused .disabled, s) else f s

/-- IDLE or halted (R160). -/
def CoreSt.idleOrHalted (k : CoreSt) : Bool := k.sq.st == .idle || k.halted

/-- Whole groups only (R160). -/
def maskOk (m : BitVec 32) : Bool := (List.range 8).all fun g => fld m (4 * g + 3) (4 * g) == 0 || fld m (4 * g + 3) (4 * g) == 15

/-- CM_ASYNC_MASK written (R160). -/
def cmAsyncMaskWrite (c : CoreId) (v : Word) (s : State) : Status × State :=
  let m : BitVec 32 := v.setWidth 32
  if s.sealed then (.refused .sealed, s)
  else if !(s.core c).idleOrHalted then (.refused .busy, s)
  else if !maskOk m then (.refused .mask, s)
  else (.ok, s.modCm c fun k => { k with asyncMask := m })

def execCmAsyncMaskWrite (c : CoreId) (v : Word) (s : State) : Res :=
  .next (s.coreOp c 1 0 (cmAsyncMaskWrite c v))

/-- CM_SCRUB written (R170). -/
def cmScrubStart (c : CoreId) (v : Word) (s : State) : Status × State :=
  let k := s.core c
  if !k.halted || k.cm.scrubBusy then (.refused .busy, s)
  else (.ok, s.modCm c fun m => { m with scrubBank := BitVec.ofNat 5 (fld v 4 0), scrubBusy := bit v 5 })

def execCmScrubStart (c : CoreId) (v : Word) (s : State) : Res :=
  .next (s.coreOp c 1 0x38 (cmScrubStart c v))

/-- CM_SCRUB_COMPLETE (R170): every row of the bank has been read, in ascending order, and each granule that needed it written back; at an
uncorrectable error the package fail-stops, with the rows before it done. -/
def cmScrubComplete (c : CoreId) (s : State) : State :=
  let m := (s.core c).cm
  if !m.scrubBusy then s
  else
    let mine (e : CodeErr) : Bool := e.store == .cm && e.core == c && cmBank e.addr == m.scrubBank.toNat
    let s := s.modCm c fun m => { m with scrubBusy := false }
    let lost := s.errs.filter fun e => mine e && (e.fold || decide (3 ≤ e.nbits))
    let first := lost.foldl (fun (b : Option CodeErr) e => match b with
      | none => some e
      | some x => if e.addr < x.addr then some e else b) none
    let read (e : CodeErr) : Bool := mine e && match first with
      | some x => decide (e.addr / 256 < x.addr / 256)
      | none => true
    let s := (s.errs.filter read).foldl countCe s
    let s := { s with errs := s.errs.filter fun e => !read e }
    match first with
    | some e => uncorrectable s e
    | none => s

def execCmScrubComplete (c : CoreId) (s : State) : Res := live s (.next (cmScrubComplete c s))

/-! ### The async port (R161 to R163) -/

/-- Rows of the async buffer (R162). -/
def asyncDepth : Nat := 16

/-- ASYNC_ARRIVAL (R19, R161, R162): refused to its source, or its rows join the buffer; those behind its 16 rows are held by the
network. Of a write that touches a byte outside the async banks and covers part of a granule, the banks come first (DESIGN CHOICE, log
entry 108). -/
def asyncArrival (c : CoreId) (a : AsyncAccess) (s : State) : State :=
  let k := s.core c
  let addr := a.addr.toNat
  let len := if a.write then a.data.length else a.len
  let rows := rowPieces (len / 256 + 2) addr len
  let refuse (r : Reason) (s : State) : State := s.emit (.async a.src.toNat (.refused r) [])
  let counted : State := s.modCm c fun m => { m with asyncStat := satAdd m.asyncStat 63 48 1 }
  if s.fusedOff c then refuse .disabled s
  else if cmBytes < addr + len ∨ !insideAsync k addr len then refuse .asyncBank counted
  else if a.write ∧ (addr % 32 ≠ 0 ∨ len % 32 ≠ 0) then refuse .align counted
  else
    let entry (x : Nat × Nat) : AsyncRow :=
      if a.write then .write x.1 (slice a.data (x.1 - addr) x.2) a.src else .read x.1 x.2 a.src
    s.modCm c fun m => { m with asyncBuf := m.asyncBuf ++ rows.map entry }

def execAsyncArrival (c : CoreId) (a : AsyncAccess) (s : State) : Res := live s (.next (asyncArrival c a s))

/-- The aperture's address of a core-memory byte (R171). -/
def apertureAddr (c : CoreId) (a : Nat) : Nat := coreAddr c 1 (0x80000 + a % 0x80000)

/-- Whether a bank is free for the async port or management in the present a-cycle: no access has it, and no scheduled one asks for it
(rule 5 of R157). -/
def CoreSt.bankOpen (k : CoreSt) (bank : Nat) : Bool :=
  k.bankFree bank && !k.due.any fun a => a.port == .bank && a.units.any fun u => u.1 == bank

/-- A bank is taken for the async port (code 0xE) or management (0xF) to the a-cycle `until_`. -/
def Cm.take (m : Cm) (code a until_ : Nat) : Cm :=
  { m with inUse := m.inUse ++ [(until_, { port := .bank, unit := cmBank a, row := a / 256, code, write := false })] }

/-- ASYNC_ROW_LAND (R162): the head row takes its bank, when the bank is free or its guard has taken it (R157, R163). A row that was
read leaves for the saddle die (R266). -/
def asyncRowLand (c : CoreId) (s : State) : State :=
  let k := s.core c
  match k.cm.asyncBuf with
  | [] => s
  | row :: rest =>
    if !k.cm.headServed && !k.bankOpen (cmBank row.addr) then s
    else
      let s := s.modCm c fun m =>
        { m.take 14 row.addr k.sq.clk with asyncBuf := rest, headWait := 0, guardAt := none, headServed := false }
      match row with
      | .write a data src =>
        ((clearErrs s .cm c a (a + data.length)).cmWrite c a data).emit (.async src.toNat .ok [])
      | .read a len src => cmChecked s c a len fun s => (s.rowsUp c.toNat 8 1).emit (.async src.toNat .ok (s.cmRead c a len))
      | .mgmtRead a => cmChecked s c a 8 fun s => (s.rowsUp c.toNat 11 1).emit (.mgmt (apertureAddr c a) false .ok (Mem.word (s.core c).cm.mem a))
      | .message p a => landRow s (.core p.dstUnit) p.dstEp.toNat p a

def execAsyncRowLand (c : CoreId) (s : State) : Res := live s (.next (asyncRowLand c s))

/-- A-cycles that the head row waits before its guard fires (R163). -/
def guardWait : Nat := 64

/-- ASYNC_GUARD_FIRE (R163): the head row has waited 64 a-cycles; in the next one it takes its bank, and every scheduled access to the
bank is held. -/
def asyncGuardFire (c : CoreId) (s : State) : State :=
  let k := s.core c
  if k.cm.asyncBuf.isEmpty || decide (k.cm.headWait < guardWait) || k.cm.guardAt.isSome || k.cm.headServed then s
  else s.modCm c fun m => { m with guardAt := some (k.sq.clk + 1), asyncStat := satAdd m.asyncStat 23 8 1 }

def execAsyncGuardFire (c : CoreId) (n : Nat) (s : State) : Res := waited c n (asyncGuardFire c) s

/-- CM_ASYNC_STAT. -/
def asyncStatWord (m : Cm) : Word := m.asyncStat ||| fw 4 0 (min asyncDepth m.asyncBuf.length)

/-! ### Management access to core memory (R7, R165, R376) -/

/-- Time passes at a halted core until a bank is free for management. `n` bounds the a-cycles. -/
def State.awaitBank (s : State) (c : CoreId) (bank : Nat) : Nat → State
  | 0 => s
  | n + 1 => if (s.core c).bankOpen bank then s else (s.pass c 1).awaitBank c bank n

/-- A management access to a word of core memory: `none` while the async port has still to serve it, or for a word that an
uncorrectable error keeps from delivery (R169). It takes its bank under rule 5 of R157, a write for the three a-cycles of R154. -/
def coreMemAccess (c : CoreId) (a : Nat) (write : Bool) (v : Word) (s : State) : Option (Status × Word) × State :=
  let k := s.core c
  if a % 8 ≠ 0 then (some (.refused .align, 0), s)
  else if s.fusedOff c then (some (.refused .disabled, 0), s)
  else if s.cu.failstop then (some (.refused .failed, 0), s)
  else if k.halted then
    let s := (s.awaitBank c (cmBank a) 64).modCore c fun k =>
      { k with cm := k.cm.take 15 a (k.sq.clk + if write then 2 else 0) }
    let s' := cmChecked s c a 8 fun s =>
      if write then (clearErrs s .cm c (a / 32 * 32) (a / 32 * 32 + 32)).cmWrite c a (wordBytes v) else s
    let lost := (errsIn s .cm c (a / 256 * 256) (a / 256 * 256 + 256)).any fun e => e.fold || decide (3 ≤ e.nbits)
    (if lost then none else some (.ok, if write then 0 else Mem.word (s.core c).cm.mem a), s')
  else if write || !insideAsync k a 8 then (some (.refused .busy, 0), s)
  else (none, s.modCm c fun m => { m with asyncBuf := m.asyncBuf ++ [.mgmtRead a] })

/-- The completion of a management access, when it has one (R14). -/
def State.answer (s : State) (addr : Nat) (write : Bool) (r : Option (Status × Word)) : State :=
  match r with
  | some (st, v) => s.emit (.mgmt addr write st v)
  | none => s

def execMgmtCoreMemoryAccess (c : CoreId) (a : BitVec 23) (write : Bool) (v : Word) (s : State) : Res :=
  let (r, s) := coreMemAccess c a.toNat write v s
  .next (s.answer (apertureAddr c a.toNat) write r)

end Sys2Proof.Machine
end

