-- ==== Sys2Proof/Machine/CoreCtl.lean ====
section
/-! DEFINITION. Sequencer control, core reset behind its fence, and the run-time fault-handling service (R143 to R148, R288
to R290, R379 to R381, R470, R471). -/

namespace Sys2Proof.Machine

/-! ### SQ_CTRL (R147, R148) -/

/-- The a-cycle count of a core comes up to the largest one when it enters RUN, so that the cores' counts run together (log entry 109). -/
def State.syncClk (s : State) (c : CoreId) : State :=
  s.pass c (coreIds.foldl (fun m d => max m (s.core d).sq.clk) 0 - (s.core c).sq.clk)

def sqStart (c : CoreId) (s : State) : Status × State :=
  match (s.core c).sq.st with
  | .ready | .done => (.ok, (s.syncClk c).modSq c fun q => { q with
      st := .run, pc := q.startPc, cycle := 0, holds := 0, bundle := [], waiting := false })
  | _ => (.refused .state, s)

/-- A core leaves RUN for STOPPED at a bundle boundary. -/
def Sq.stop (q : Sq) : Sq := { q with st := .stopped, holds := 0, bundle := [], waiting := false }

def sqStop (c : CoreId) (s : State) : Status × State :=
  match (s.core c).sq.st with
  | .run => (.ok, s.modSq c Sq.stop)
  | _ => (.refused .state, s)

def sqResume (c : CoreId) (s : State) : Status × State :=
  if (s.core c).sq.st = .stopped ∧ (s.core c).quiet then (.ok, (s.syncClk c).modSq c fun q => { q with st := .run })
  else (.refused .state, s)

/-- The fence of a core begins (R380). -/
def sqReset (c : CoreId) (s : State) : Status × State :=
  if (s.core c).sq.st = .resetting then (.refused .state, s)
  else
    let s := s.modSq c fun q => { q with st := .resetting, holds := 0, release := none, waitDma := none, bundle := [], waiting := false }
    (.ok, { s with cu := { s.cu with fences := s.cu.fences ++ [.core c] } })

def execSqCtrlStart (c : CoreId) (s : State) : Res := .next (s.coreOp c 0 8 (sqStart c))
def execSqCtrlStop (c : CoreId) (s : State) : Res := .next (s.coreOp c 0 8 (sqStop c))
def execSqCtrlResume (c : CoreId) (s : State) : Res := .next (s.coreOp c 0 8 (sqResume c))
def execSqCtrlReset (c : CoreId) (s : State) : Res := .next (s.coreOp c 0 8 (sqReset c))

/-! ### The fence of a core (R379 to R381) -/

/-- Requests of a core that have not completed, inside the package or on the fabric (R380). -/
def coreRequests (s : State) (c : CoreId) : Bool :=
  let k := s.core c
  k.dma.queues.toList.any (fun q => !q.descs.isEmpty)
    || !k.me.pendWs.isEmpty || !k.me.pendCm.isEmpty || k.me.tiles.toList.any (fun t => t.st == .replay)
    || k.cq.send.toList.any (fun e => e.st == .opening || !e.flights.isEmpty)
    || k.cq.handles.toList.any (fun h => h.joining || h.busy)
    || s.fi.awaited.any fun p => !p.ssad && p.srcUnit == c

/-- Whether a core's fence may close: what arrived has landed too. -/
def coreDrained (s : State) (c : CoreId) : Bool :=
  let m := (s.core c).cm
  !coreRequests s c && m.asyncBuf.isEmpty && !m.asks.any fun a => decide (12 ≤ a.code)

/-- Registers return to their reset values, but for what R470 and R471 keep; incarnations advance (R379). A handshake request that waits
keeps its window (R226), and a broken queue's CLOSE record its credit wait. -/
def CoreSt.reset (k : CoreSt) : CoreSt :=
  { sq := { imem := k.sq.imem, clk := k.sq.clk }
    me := { active := { k.me.active with source := none }, stirrup := { k.me.stirrup with source := none }
            acc := k.me.acc, abuf := k.me.abuf, ascale := k.me.ascale }
    ve := { vob := k.ve.vob }
    cm := { mem := k.cm.mem, asyncMask := k.cm.asyncMask, eccCnt := k.cm.eccCnt, eccFirst := k.cm.eccFirst }
    dma := {}
    cq := { send := k.cq.send.map fun e => { inc := e.inc + 1 }
            recv := k.cq.recv.map fun e => { inc := e.inc + 1, waiting := e.waiting }
            queues := k.cq.queues.map fun q => { inc := q.inc + 1, waiting := q.waiting, owed := q.owed } }
    inc := k.inc + 1 }

/-- Every combining queue of the package. -/
def allQueues : List QueueRef :=
  coreIds.flatMap (fun c => (List.range 4).map fun k => QueueRef.local c (BitVec.ofNat 2 k))
    ++ (List.range 64).map fun k => QueueRef.saddle (BitVec.ofNat 6 k)

/-- Whether a core contributes to a queue of this package. -/
def contributesTo (s : State) (c : CoreId) (q : QueueRef) : Bool :=
  (s.queue q).contribs.any fun x => x.2.peer.loc && !x.2.peer.saddle && x.2.peer.unit == c

/-- The peer-reset notices of a core's OPEN send endpoints (R380). -/
def peerResetNotices (s : State) (c : CoreId) : State :=
  (List.range 32).foldl (fun s e =>
    let x := (vget (s.core c).cq.send e)
    if x.st = .opened then s.send { toPeer (corePeer c e x.inc) x.peer .peerReset with arg := fw 39 0 x.seq } else s) s

/-- The queues that a core's reset ends: its own, and those it contributes to, here or on another package; the queues that it reads lose
the reader (R247). Its own queues' incarnations advance with the core's (R380). -/
def leaveQueues (s : State) (c : CoreId) : State :=
  let s := (List.range 4).foldl (fun s k => endQueue s (.local c (BitVec.ofNat 2 k))) s
  let s := (List.range 16).foldl (fun s h => if (vget (s.core c).cq.handles h).loc then s else leaveQueue s c h) s
  let s := (allQueues.filter (contributesTo s c)).foldl breakQueue s
  (List.range 32).foldl (fun s e =>
    (allQueues.filter fun q => (s.queue q).readers.any fun r => r.2.ep.peer.loc && !r.2.ep.peer.saddle
        && r.2.ep.peer.unit == c && r.2.ep.peer.ep.toNat == e).foldl (fun s q => readerGone s q c (BitVec.ofNat 8 e)) s) s

/-- A core's fence closes (R379, R380, R470): the core is IDLE. -/
def closeCoreFence (c : CoreId) (s : State) : State :=
  if !(s.cu.fences.contains (.core c)) || !coreDrained s c then s
  else
    let s := peerResetNotices (leaveQueues s c) c
    { (s.modCore c CoreSt.reset) with cu := { s.cu with fences := s.cu.fences.erase (.core c) } }

/-- FENCE_TIMEOUT (R381): CU_FENCE. -/
def fenceTimeout (u : FenceUnit) (s : State) : State :=
  if !s.cu.fences.contains u then s
  else match u with
    | .core c => s.failCode 0x0B01 c false
    | .package => s.failCode 0x0B01 3 true

def execFenceTimeout (u : FenceUnit) (s : State) : Res := live s (.next (fenceTimeout u s))

/-! ### The fault-handling service (R288 to R290) -/

/-- HOLD on every step-start tollgate of the program, and every core in RUN stopped. -/
def holdSteps (s : State) : State :=
  let tgs := match s.sections with
    | some p => p.stepStartTgs
    | none => []
  let s := tgs.foldl (fun s n => s.modTg n.toNat fun t => { t with cfg := setFld t.cfg 61 61 1 }) s
  { s with cores := s.cores.map fun k => if k.sq.st = .run then { k with sq := k.sq.stop } else k }

/-- The fault register of the unit that a fault code names (R13, R289). -/
def unitFaultWord (k : CoreSt) (code : Nat) : Word :=
  match code / 256 with
  | 2 => k.me.fault
  | 3 => k.ve.fault
  | 5 => k.dma.fault
  | 6 => k.cq.fault
  | _ => 0

/-- The fault record of a core (R289), not yet classified. -/
def faultRecord (s : State) (c : CoreId) : FaultRecord :=
  let k := s.core c
  { svc := s.svc, phys := c, logical := BitVec.ofNat 8 (logicalCore s.part c), sqFault := k.sq.fault
    unitFault := unitFaultWord k (fld k.sq.fault 63 48), fprint := s.fprint
    step := match s.fsvc.lastStep with
      | some (tg, round) => BitVec.ofNat 32 (tg.toNat * 2 ^ 16 + round.toNat)
      | none => 0
    timeNs := s.now, cls := 0 }

/-- CORE_FAULT_EVENT (R146, R288): the event of a faulted core reaches the service. -/
def coreFaultEvent (c : CoreId) (s : State) : State :=
  if !s.coreFaults.contains c then s
  else
    let r := faultRecord s c
    let s := holdSteps { s with coreFaults := s.coreFaults.erase c }
    { s with fsvc := { s.fsvc with records := s.fsvc.records ++ [r] } }

def execCoreFaultEvent (c : CoreId) (s : State) : Res := live s (.next (coreFaultEvent c s))

/-- Whether a loss of a partition member with time in [f − 5 s, f + 300 µs) is known. -/
def memberLost (s : State) (f : Nat) : Bool :=
  let members := match s.sections with
    | some p => p.members
    | none => []
  s.cu.losses.any fun w => members.contains w.1 && decide (f ≤ w.2 + 5000000000 ∧ w.2 < f + 300000)

/-- The bytes of a fault record in the KDMP fault report, in the order of R289. -/
def FaultRecord.bytes (r : FaultRecord) : List Byte :=
  leBytes 2 r.svc.toNat ++ [r.phys, r.logical] ++ wordBytes r.sqFault ++ wordBytes r.unitFault ++ wordBytes r.fprint
    ++ leBytes 4 r.step.toNat ++ wordBytes r.timeNs ++ [r.cls]

/-- FAULT_CLASSIFY (R288): the window of the oldest record that is not classified ends. -/
def faultClassify (s : State) : State :=
  match s.fsvc.records.find? (fun r => r.cls == 0) with
  | none => s
  | some r =>
    let lost := memberLost s r.timeNs.toNat
    let r' := { r with cls := if lost then 2 else 1 }
    let s : State := { s with fsvc := { s.fsvc with records := s.fsvc.records.map fun x => if x = r then r' else x } }
    if lost then s
    else
      let members := match s.sections with
        | some p => p.members
        | none => []
      let s := (members.filter (· != s.svc)).foldl (fun s m => s.emit (.programFault m)) s
      let s : State := { s with fsvc := { s.fsvc with held := true } }
      s.report 0x40 r'.bytes

def execFaultClassify (s : State) : Res := live s (.next (faultClassify s))

/-- PROGRAM_FAULT (R288): a member holds its steps and stops its cores, and sends no report. -/
def programFault (_svc : BitVec 16) (s : State) : State :=
  let s := holdSteps s
  { s with fsvc := { s.fsvc with held := true } }

def execProgramFault (svc : BitVec 16) (s : State) : Res := live s (.next (programFault svc s))

end Sys2Proof.Machine
end

