-- ==== Sys2Proof/Machine/Fabric.lean ====
section
/-! DEFINITION. The fabric interface: link blocks and retry, port states, the cabling check, lanes, routing banks and
telemetry (R314 to R341, R345 to R349). -/

namespace Sys2Proof.Machine

/-! ### Faults (R349) -/

/-- FI_FAULT takes the first fault. -/
def State.fiFault (s : State) (code port lane : Nat) : State :=
  let w := fw 63 48 code ||| fw 47 45 port ||| fw 44 41 lane ||| fw 31 0 s.now.toNat
  { s with fi := { s.fi with fault := firstFault s.fi.fault w } }

/-- A fault of the fabric interface that fail-stops (R374). The router is saddle unit 0x05. -/
def State.fiFail (s : State) (code port : Nat) (lane : Nat := 15) : State := (s.fiFault code port lane).failCode code 5 true port

/-- A port is lost (R324). -/
def portLost (s : State) (p : Nat) (lane : Nat := 15) : State := (s.modPort p fun x => { x with st := .lost }).fiFail 0x0801 p lane

/-- A start-up fault of a port or of the cabling (R349, R405). -/
def State.fiStart (s : State) (code port : Nat) : State :=
  let s := s.fiFault code port 15
  s.startFault code s.fi.fault

/-- Whether blocks pass on a port: it has trained and is not lost. -/
def PortState.linked : PortState → Bool
  | .ident | .checked | .up => true
  | _ => false

/-! ### LINK flits (R320) -/

/-- The IDENT flit that a package sends. -/
def identWord (s : State) (p : Nat) : Nat :=
  1 * 2 ^ 248 + p * 2 ^ 224 + s.chip.toNat * 2 ^ 208 + (vget s.fi.ports p).portInc.toNat * 2 ^ 192 + s.svc.toNat * 2 ^ 176
    + (if s.fi.chipValid then 2 ^ 171 else 0)

/-- A LANE_DROP or LANE_ACK flit. -/
def laneWord (ltype : Nat) (map : BitVec 12) (at_ : BitVec 16) : Nat := ltype * 2 ^ 248 + map.toNat * 2 ^ 236 + at_.toNat * 2 ^ 220

/-! ### Blocks and link retry (R316 to R319, R326) -/

/-- Blocks that an ACK covers leave the replay buffer. -/
def FiPort.acked (p : FiPort) (ack : BitVec 16) : FiPort :=
  match p.replay.findIdx? (fun b => b.1 == ack) with
  | some i => { p with replay := p.replay.drop (i + 1), txLanes := p.txLanes.drop (i + 1) }
  | none => p

/-- On a NAK every block of the replay buffer is sent again and counted. -/
def FiPort.resent (p : FiPort) : FiPort :=
  { p with
    replay := p.replay.map fun b => (b.1, b.2 + 1), link := satAdd p.link 63 44 p.replay.length
    txBlock := p.txBlock + p.replay.length, txLanes := p.nextLanes p.replay.length }

/-- Flits of an accepted block join the ingress buffers. -/
def FiPort.accept (p : FiPort) (b : UzlBlock) : FiPort :=
  { p with
    rxNext := p.rxNext + 1, rxAny := true, nak := false
    rxPktNow := p.rxPktNow + b.heads, rxByteNow := p.rxByteNow + 32 * b.bodies
    link := satAdd p.link 43 24 b.corrected
    vcs := b.flits.foldl (fun v f => vmod v f.1.toNat fun x =>
      { x with depth := x.depth + f.2, maxNow := max x.maxNow (x.depth + f.2) }) p.vcs }

/-- The next block in order is received (R318, R319, R326). -/
def takeBlock (i : Nat) (b : UzlBlock) (s : State) : State :=
  if !b.good then s.modPort i fun x => { x with nak := true }
  else
    let s := s.modPort i fun x => { x with xoffTx := b.xoff }
    let s := if b.ackv then s.modPort i fun x => x.acked b.ack else s
    let s := if b.nak then s.modPort i FiPort.resent else s
    let s := s.modPort i fun x =>
      if b.idle then { x with link := satAdd x.link 43 24 b.corrected }
      else if x.rxNext = b.bseq then (x.accept b).flowControl s.fi.vcCfg
      else { x with nak := true }
    if (vget s.fi.ports i).replay.any (fun r => 16 ≤ r.2) then s.fiFail 0x0802 i else s.drainEgress i

/-- The blocks whose lanes are in turn are restored to order and received (R317); `n` bounds them. -/
def restoreBlocks : Nat → Nat → State → State
  | 0, _, s => s
  | n + 1, i, s =>
    let p := vget s.fi.ports i
    let turn (b : UzlBlock) : Bool := match p.laneOf p.rxBlock with
      | some l => b.lane.toNat == l
      | none => true
    match p.deskew.find? turn with
    | none => s
    | some b => restoreBlocks n i (takeBlock i b (s.modPort i fun x => { x with deskew := x.deskew.erase b, rxBlock := x.rxBlock + 1 }))

/-- UZL_BLOCK_RECEIVE (R317 to R319, R326): a block arrives on an active lane. -/
def uzlBlockReceive (p : BitVec 3) (b : UzlBlock) (s : State) : State :=
  let i := p.toNat
  let x := vget s.fi.ports i
  if !x.st.linked || !(x.laneMap == 0 || bit x.laneMap b.lane.toNat) then s
  else restoreBlocks (x.deskew.length + 1) i (s.modPort i fun x => { x with deskew := x.deskew ++ [b] })

def execUzlBlockReceive (p : BitVec 3) (b : UzlBlock) (s : State) : Res := live s (.next (uzlBlockReceive p b s))

/-! ### Training and the cabling check (R321, R331, R332) -/

/-- FI_CTRL.TRAIN (R321, R346). -/
def fiTrain (s : State) : Status × State :=
  if s.fi.ports.toList.any (fun p => p.st != .off) then (.refused .state, s)
  else (.ok, { s with fi := { s.fi with ports := s.fi.ports.map fun p =>
    { p with
      st := .training, portInc := p.portInc + 1, laneMap := 0, dropMap := none, trainFault := false, deskew := [], rxBlock := 0
      txBlock := 0, txLanes := [] } } })

def execFiCtrlTrain (s : State) : Res := .next (s.mgmtOp 0x0300000008 fiTrain)

/-- PORT_IDENT_TIMER (R321): 500 ms after TRAIN a port with at least six locked lanes enters IDENT and sends IDENT. -/
def portIdentTimer (p : BitVec 3) (locked : BitVec 12) (s : State) : State :=
  if (vget s.fi.ports p.toNat).st ≠ .training ∨ popcount locked 12 < 6 then s
  else
    let s := s.modPort p.toNat fun x => { x with st := .ident, laneMap := locked }
    s.emit (.link p.toNat 1 (identWord s p.toNat))

def execPortIdentTimer (p : BitVec 3) (locked : BitVec 12) (s : State) : Res := live s (.next (portIdentTimer p locked s))

/-- PORT_TRAIN_TIMEOUT (R321): a port not CHECKED within 2 s of TRAIN raises FI_TRAIN. -/
def portTrainTimeout (p : BitVec 3) (s : State) : State :=
  match (vget s.fi.ports p.toNat).st with
  | .training | .ident => (s.modPort p.toNat fun x => { x with trainFault := true }).fiStart 0x0806 p.toNat
  | _ => s

def execPortTrainTimeout (p : BitVec 3) (s : State) : Res := live s (.next (portTrainTimeout p s))

/-- IDENT (R320, R332): the switch's identity, in the layout of FI_Pp_SEEN. -/
def ident (p : BitVec 3) (f : IdentFlit) (s : State) : State :=
  if !(vget s.fi.ports p.toNat).st.linked || f.role != 1 then s
  else s.modPort p.toNat fun x => { x with
    seen := fw 63 56 f.plane.toNat ||| fw 55 40 f.swport.toNat ||| fw 39 24 f.chip.toNat ||| 1 }

def execIdent (p : BitVec 3) (f : IdentFlit) (s : State) : Res := live s (.next (ident p f s))

/-- Whether a port sees the identity that another, or it itself, expects. -/
def sees (s : State) (p q : Nat) : Bool :=
  let a := (vget s.fi.ports p).seen
  bit a 0 && fld a 63 24 == fld (vget s.fi.ports q).expect 63 24

/-- FI_Pp_STATUS.CABLE of R332: 1 OK, 2 SWAPPED, 3 MISWIRED. -/
def cableOf (s : State) (p : Nat) : Nat :=
  if sees s p p then 1 else if 6 ≤ p && sees s p (13 - p) && sees s (13 - p) p then 2 else 3

/-- FI_CTRL.CHECK (R332, R346): every port in IDENT or failed; both far ports OK, or SWAPPED and accepted, verify the chip
ID; checked ports enter UP. With every port UP the Fabric phase ends (R404). -/
def fiCheck (s : State) : Status × State :=
  if s.fi.checkRun || !(s.fi.ports.toList.all fun p => p.st == .ident || p.trainFault) then (.refused .state, s)
  else
    let cables := (List.range 8).map (cableOf s)
    let c (p : Nat) : Nat := cables.getD p 3
    let far := c 6 == 1 && c 7 == 1
    let swapped := c 6 == 2 && c 7 == 2 && s.fi.acceptSwap
    let ok (p : Nat) : Bool := c p == 1 || (swapped && c p == 2)
    let ports := s.fi.ports.mapIdx fun p x =>
      if x.st ≠ .ident then x
      else { x with
        cable := BitVec.ofNat 2 (c p)
        st := if !ok p then x.st else if p < 6 ∨ far ∨ swapped then .up else .checked }
    let s : State := { s with fi := { s.fi with
      ports, checkRun := true, chipValid := far || swapped
      portMap := if swapped then s.fi.portMap ||| 1 else s.fi.portMap } }
    let bad := (List.range 8).find? fun p => (vget s.fi.ports p).st == .ident
    (.ok, match bad with
      | some p => s.fiStart 0x0807 p
      | none => if s.ms.phase = 7 && s.fi.ports.toList.all (fun p => p.st == .up) then { s with ms := { s.ms with phase := 8 } } else s)

def execFiCtrlCheck (s : State) : Res := .next (s.mgmtOp 0x0300000008 fiCheck)

/-! ### Lanes (R322 to R324) -/

/-- A new lane map is in use, with blocks counted from its first lane on (R317, R323); the lanes removed are counted, and a removal clears the resend counts (R319, R323). -/
def FiPort.useMap (p : FiPort) (map : BitVec 12) : FiPort :=
  let new := p.laneMap &&& map
  { p with
    laneMap := new
    link := satAdd p.link 7 4 (popcount p.laneMap 12 - popcount new 12)
    replay := p.replay.map fun b => (b.1, 0)
    deskew := [], rxBlock := 0, txBlock := 0 }

/-- A lane became bad at this end (R323, R324): its removal is proposed. -/
def proposeDrop (s : State) (p : Nat) (lane : Nat) : State :=
  let x := vget s.fi.ports p
  let map := x.dropMap.getD x.laneMap
  if !x.st.linked || !bit map lane then s
  else
    let new := map &&& ~~~(1#12 <<< lane)
    if popcount new 12 < 6 then portLost s p lane
    else (s.modPort p fun x => { x with dropMap := some new }).emit (.link p 2 (laneWord 2 new (x.txNext + 64)))

/-- LANE_WINDOW_END (R322). -/
def laneWindowEnd (p : BitVec 3) (lane : BitVec 4) (corrected uncorrectable : Nat) (s : State) : State :=
  if fld s.fi.laneCfg 63 32 < corrected ∨ fld s.fi.laneCfg 31 24 ≤ uncorrectable then proposeDrop s p.toNat lane.toNat else s

def execLaneWindowEnd (p : BitVec 3) (lane : BitVec 4) (corrected uncorrectable : Nat) (s : State) : Res :=
  live s (.next (laneWindowEnd p lane corrected uncorrectable s))

/-- LANE_LOCK_LOSS (R322). -/
def laneLockLoss (p : BitVec 3) (lane : BitVec 4) (s : State) : State := proposeDrop s p.toNat lane.toNat

def execLaneLockLoss (p : BitVec 3) (lane : BitVec 4) (s : State) : Res := live s (.next (laneLockLoss p lane s))

/-- LANE_DROP (R323, R324): the peer's proposal is acknowledged and taken, with this end's own where they cross. -/
def laneDrop (p : BitVec 3) (map : BitVec 12) (_at : BitVec 16) (s : State) : State :=
  let x := vget s.fi.ports p.toNat
  if !x.st.linked then s
  else
    let new := x.laneMap &&& map &&& x.dropMap.getD 0xFFF
    if popcount new 12 < 6 then portLost s p.toNat
    else
      let s := s.modPort p.toNat fun x => x.useMap new
      s.emit (.link p.toNat 3 (laneWord 3 new (x.txNext + 64)))

def execLaneDrop (p : BitVec 3) (map : BitVec 12) (bseqAt : BitVec 16) (s : State) : Res :=
  live s (.next (laneDrop p map bseqAt s))

/-- LANE_ACK (R323): the removal that this end proposed takes place. -/
def laneAck (p : BitVec 3) (map : BitVec 12) (_at : BitVec 16) (s : State) : State :=
  match (vget s.fi.ports p.toNat).dropMap with
  | some m =>
    let new := (vget s.fi.ports p.toNat).laneMap &&& m &&& map
    if popcount new 12 < 6 then portLost s p.toNat
    else s.modPort p.toNat fun x => { x.useMap new with dropMap := none }
  | none => s

def execLaneAck (p : BitVec 3) (map : BitVec 12) (bseqAt : BitVec 16) (s : State) : Res :=
  live s (.next (laneAck p map bseqAt s))

/-- LANE_ACK_TIMEOUT (R324): a proposal has no answer within 20 µs. -/
def laneAckTimeout (p : BitVec 3) (s : State) : State :=
  if (vget s.fi.ports p.toNat).dropMap.isSome then portLost s p.toNat else s

def execLaneAckTimeout (p : BitVec 3) (s : State) : Res := live s (.next (laneAckTimeout p s))

/-- BLOCK_LOCK_LOSS (R324): block lock is lost on every lane. -/
def blockLockLoss (p : BitVec 3) (s : State) : State :=
  if (vget s.fi.ports p.toNat).st.linked then portLost s p.toNat else s

def execBlockLockLoss (p : BitVec 3) (s : State) : Res := live s (.next (blockLockLoss p s))

/-! ### Routing banks (R337, R338) -/

def State.bank (s : State) (b : Bool) : Mem := if b then s.fi.rtB else s.fi.rtA

def State.setBank (s : State) (b : Bool) (m : Mem) : State :=
  { s with fi := if b then { s.fi with rtB := m } else { s.fi with rtA := m } }

/-- FI_RT_CTRL.COPY (R337): it begins, and the idle bank is BUSY. -/
def rtCopy (s : State) : Status × State :=
  if s.fi.bankBusy (!s.fi.epoch) then (.refused .busy, s) else (.ok, { s with fi := { s.fi with copying := true } })

def execFiRtCopy (s : State) : Res := .next (s.mgmtOp 0x0300000048 rtCopy)

/-- RT_COPY_DONE (R337): 32,768 c-cycles later the idle bank holds the active one. -/
def rtCopyDone (s : State) : State :=
  if !s.fi.copying then s
  else
    let s := s.setBank (!s.fi.epoch) (s.bank s.fi.epoch)
    { s with fi := { s.fi with copying := false } }

/-- FI_RT_CTRL.FLIP (R338). -/
def rtFlip (s : State) : Status × State :=
  if s.fi.bankBusy (!s.fi.epoch) then (.refused .busy, s)
  else (.ok, { s with fi := { s.fi with left := some s.fi.epoch, epoch := !s.fi.epoch } })

def execFiRtFlip (s : State) : Res := .next (s.mgmtOp 0x0300000048 rtFlip)

/-- RT_DRAIN_TIMEOUT (R338): 400 µs after a FLIP the bank it left still awaits responses. -/
def rtDrainTimeout (s : State) : State :=
  match s.fi.left with
  | some b => if s.fi.inFlight b ≠ 0 then s.fiFail 0x0804 0 else s
  | none => s

def execRtDrainTimeout (s : State) : Res := live s (.next (rtDrainTimeout s))

/-- A write to a word of a routing bank (R337, R348). -/
def rtWrite (b : Bool) (w : Nat) (v : Word) (s : State) : Status × State :=
  if b = s.fi.epoch ∨ s.fi.bankBusy b then (.refused .busy, s) else (.ok, s.setBank b (Mem.setWord (s.bank b) (8 * w) v))

/-- FI_RT_STATUS. -/
def rtStatusWord (f : Fi) : Word :=
  fw 63 63 (if f.epoch then 1 else 0) ||| fw 62 62 (if f.copying then 1 else 0) ||| fw 61 61 (if f.bankBusy true then 1 else 0)
    ||| fw 60 60 (if f.bankBusy false then 1 else 0) ||| fw 55 28 (f.inFlight true) ||| fw 27 0 (f.inFlight false)

/-! ### Telemetry and port registers (R345, R347) -/

/-- TELEMETRY_WINDOW (R345): the registers take the counts of the window that ends. -/
def FiPort.window (p : FiPort) : FiPort :=
  { p with
    txPkt := BitVec.ofNat 64 p.txPktNow, txByte := BitVec.ofNat 64 p.txByteNow
    rxPkt := BitVec.ofNat 64 p.rxPktNow, rxByte := BitVec.ofNat 64 p.rxByteNow
    txPktNow := 0, txByteNow := 0, rxPktNow := 0, rxByteNow := 0
    vcs := p.vcs.map fun v => { v with maxLast := v.maxNow, stallLast := v.stallNow, maxNow := v.depth, stallNow := 0 } }

def telemetryWindow (s : State) : State := { s with fi := { s.fi with ports := s.fi.ports.map FiPort.window } }

def execTelemetryWindow (s : State) : Res := live s (.next (telemetryWindow s))

def PortState.code : PortState → Nat
  | .off => 0
  | .training => 1
  | .ident => 2
  | .checked => 3
  | .up => 4
  | .lost => 5

def portStatusWord (p : FiPort) : Word :=
  fw 63 61 p.st.code ||| fw 60 59 p.cable.toNat ||| fw 58 55 (popcount p.laneMap 12) ||| fw 54 43 p.laneMap.toNat
    ||| fw 42 27 p.portInc.toNat ||| fw 26 19 p.xoffRx.toNat ||| fw 18 11 p.xoffTx.toNat

def vcWord (v : Vc) : Word := fw 63 49 v.depth ||| fw 48 34 v.maxLast ||| fw 33 0 v.stallLast

/-- FI_IDENT. -/
def identRegister (s : State) : Word :=
  fw 63 48 s.chip.toNat ||| fw 47 32 s.svc.toNat ||| fw 31 16 s.pinc.toNat ||| fw 15 15 (if s.fi.chipValid then 1 else 0)
    ||| fw 14 12 s.slot.toNat

end Sys2Proof.Machine
end

