-- ==== Sys2Proof/Machine/Time.lean ====
section
/-! DEFINITION. Milestone time: the counter, the servo, and the SYNC exchange (R342, R343, R435 to R438, R467). -/

namespace Sys2Proof.Machine

/-! ### The counter (R435, R436, R438) -/

/-- The counter as one number of 2^-32 ns. -/
def Ck.time (k : Ck) : Nat := k.ns.toNat * 2 ^ 32 + k.frac.toNat

def Ck.setTime (k : Ck) (t : Nat) : Ck := { k with ns := BitVec.ofNat 64 (t / 2 ^ 32), frac := BitVec.ofNat 32 t }

/-- What one c-cycle adds, or in a hold one REFCLK period (R436): INC × (1 + Y) + A, clamped to half and one and a half
times the increment. -/
def Ck.advance (k : Ck) : Nat :=
  if k.hold.isSome then ((0x666666666 : Int) + 0x666666666 * k.y / 2 ^ 40).toNat
  else
    let inc : Int := k.inc.toNat
    (max (inc / 2) (min (3 * inc / 2) (inc + inc * k.y / 2 ^ 40 + k.a))).toNat

/-- The counter after one c-cycle: while it waits for a backward step it stands still (R438). -/
def Ck.tick (k : Ck) : Ck :=
  let n := k.advance
  if n ≤ k.lag then { k with lag := k.lag - n } else { k.setTime (k.time + (n - k.lag)) with lag := 0 }

/-- The counter stepped by −o (R438), o in 2^-32 ns. -/
def Ck.stepBy (k : Ck) (o : Int) : Ck :=
  let k := if 0 < o then { k with lag := k.lag + o.toNat } else k.setTime (k.time + (-o).toNat)
  { k with steps := if k.steps = 0x3FFF then k.steps else k.steps + 1 }

/-- Correction interval in µs (R343). -/
def State.periodUs (s : State) : Nat := fld s.fi.timeCfg 31 16

/-- The correction of an interval (R437), o in 2^-32 ns; Y is kept within 500 ppm. Quotients round down (log entry 31). -/
def Ck.correct (k : Ck) (o : Int) (periodUs : Nat) : Ck :=
  if k.servo ≠ 1 ∨ 1000 * 2 ^ 32 ≤ o.natAbs then { k.stepBy o with servo := 1, a := 0 }
  else
    let p : Int := 1000 * max periodUs 1
    let y := k.y - o * 32 / p
    { k with
      y := max (-549755813) (min 549755813 y)
      a := -(o * k.inc.toNat) / (2 * p * 2 ^ 32) }

/-- TIME_CORRECTION (R343, R437): a correction interval starts. -/
def timeCorrection (s : State) : State :=
  match s.fi.offset with
  | some o => { s with ck := s.ck.correct o s.periodUs, fi := { s.fi with offset := none } }
  | none => { s with ck := { s.ck with a := 0 } }

def execTimeCorrection (s : State) : Res := live s (.next (timeCorrection s))

/-- HOLDOVER_TIMER (R343): eight periods without a SYNC. -/
def holdoverTimer (s : State) : State :=
  { s with fi := { s.fi with timeStat := setFld s.fi.timeStat 63 63 1 }, ck := { s.ck with servo := 2 } }

def execHoldoverTimer (s : State) : Res := live s (.next (holdoverTimer s))

/-- The last offset in units of 2^-8 ns (FI_TIME_STAT.OFFSET). -/
def offsetField (o : Int) : Nat := ((o / 2 ^ 24) % 2 ^ 32).toNat

/-- An offset awaits the next correction interval. -/
def State.offer (s : State) (o : Int) : State :=
  { s with fi := { s.fi with offset := some o, timeStat := setFld s.fi.timeStat 31 0 (offsetField o) } }

/-! ### The exchange (R342) -/

/-- The body flit of a TIME packet: T, CORRECTION and SEQ. -/
def timeBody (t : Nat) (corr : Nat) (seq : BitVec 16) : List Byte := leBytes 32 (t * 2 ^ 160 + corr * 2 ^ 96 + seq.toNat * 2 ^ 80)

def bodyTime (p : Pkt) : Nat := recFld p.body 20 12
def bodyCorr (p : Pkt) : Int := (BitVec.ofNat 64 (recFld p.body 12 8)).toInt
def bodySeq (p : Pkt) : BitVec 16 := BitVec.ofNat 16 (recFld p.body 10 2)

/-- A TIME packet to a package. -/
def timePkt (dst : BitVec 16) (kind : Nat) (t corr : Nat) (seq : BitVec 16) : Pkt :=
  { kind := .time, vc := 7, dsad := true, ssad := true, dstUnit := 4, srcUnit := 4, fabric := true, dstSvc := dst
    arg := fw 63 60 kind ||| fw 59 44 seq.toNat, body := timeBody t corr seq }

/-- SYNC_PERIOD (R342): the source, the package that follows the host, sends SYNC to the other members of its partition (log
entry 32). -/
def syncPeriod (s : State) : State :=
  let members := match s.sections with
    | some p => p.members.filter (· != s.svc)
    | none => []
  if !bit s.fi.timeCfg 47 then s
  else
    let seq := s.fi.syncSeq + 1
    let s : State := { s with fi := { s.fi with syncSeq := seq } }
    members.foldl (fun s m => s.send (timePkt m 1 s.ck.time 0 seq)) s

def execSyncPeriod (s : State) : Res := live s (.next (syncPeriod s))

/-- Whether a TIME packet is of a type, and comes from the source that this package follows. -/
def timeType (p : Pkt) : Nat := if p.kind = .time then fld p.arg 63 60 else 0
def fromSource (s : State) (p : Pkt) : Bool := !bit s.fi.timeCfg 47 && fld s.fi.timeCfg 63 48 == p.srcSvc.toNat

/-- SYNC (R342, R343): the follower stamps it, ends a holdover, forms an offset when it knows the path delay, and sends DREQ
when one is due. -/
def syncMsg (p : Pkt) (s : State) : State :=
  if timeType p ≠ 1 then s
  else arrive s p fun s =>
    if !fromSource s p then s
    else
      let x : SyncStamp := { t1 := bodyTime p, t2 := s.ck.time, c1 := bodyCorr p }
      let stat := setFld (clrFld s.fi.timeStat 63 63) 47 32 (fld s.fi.timeStat 47 32 + 1)
      let s : State := { s with fi := { s.fi with sync := some x, timeStat := stat, sinceDreq := s.fi.sinceDreq + 1 } }
      let s := match s.fi.delay with
        | some d => s.offer ((x.t2 : Int) - x.t1 - x.c1 * 2 ^ 16 - d)
        | none => s
      if s.fi.sinceDreq < fld s.fi.timeCfg 15 8 then s
      else
        let seq := s.fi.syncSeq + 1
        let s : State := { s with fi := { s.fi with syncSeq := seq, sinceDreq := 0, dreq := some (seq, s.ck.time) } }
        s.send (timePkt p.srcSvc 2 s.ck.time 0 seq)

def execSyncMsg (p : Pkt) (s : State) : Res := live s (.next (syncMsg p s))

/-- DREQ (R342): the source answers with its ingress stamp, and returns the correction that the DREQ carried (log entry
33). -/
def dreq (p : Pkt) (s : State) : State :=
  if timeType p ≠ 2 then s
  else arrive s p fun s => s.send (timePkt p.srcSvc 3 s.ck.time (recFld p.body 12 8) (bodySeq p))

def execDreq (p : Pkt) (s : State) : Res := live s (.next (dreq p s))

/-- DRESP (R342): path delay and offset. -/
def dresp (p : Pkt) (s : State) : State :=
  if timeType p ≠ 3 then s
  else arrive s p fun s =>
    match s.fi.sync, s.fi.dreq with
    | some x, some (seq, t3) =>
      if !fromSource s p || bodySeq p != seq then s
      else
        let forth : Int := (x.t2 : Int) - x.t1 - x.c1 * 2 ^ 16
        let d := (forth + ((bodyTime p : Int) - t3 - bodyCorr p * 2 ^ 16)) / 2
        ({ s with fi := { s.fi with dreq := none, delay := some d } } : State).offer (forth - d)
    | _, _ => s

def execDresp (p : Pkt) (s : State) : Res := live s (.next (dresp p s))

/-! ### Registers of the counter (R435, R437, R445) -/

/-- A read of MS_MSC_NS latches the fraction (R435). -/
def readNs (s : State) : Word × State := (s.ck.ns, { s with ck := { s.ck with fracLatch := s.ck.frac } })

def execMsMscNsRead (s : State) : Res :=
  let (v, s) := readNs s
  .next (s.emit (.mgmt 0x0000200018 false .ok v))

/-- MS_MSC_HOSTOFS (R437, R445): a signed offset in 2^-8 ns, when this package follows the host. -/
def hostOfs (v : Word) (s : State) : Status × State :=
  if !bit s.fi.timeCfg 47 then (.refused .state, s) else (.ok, s.offer (v.toInt * 2 ^ 24))

def execMsMscHostofsWrite (v : Word) (s : State) : Res := .next (s.mgmtOp 0x0000200030 (hostOfs v))

/-- MS_MSC_SERVO. -/
def servoWord (k : Ck) : Word := fw 63 62 k.servo.toNat ||| fw 61 48 k.steps.toNat ||| fw 47 16 ((k.y % 2 ^ 32).toNat)

end Sys2Proof.Machine
end

