-- ==== Sys2Proof/Machine/Crypto.lean ====
section
/-! DEFINITION. SHA-384, HMAC, HKDF and P-384 signatures, as the standards that the manual names define them (FIPS 180-4,
FIPS 186-5, RFC 5869; R295 to R297, R416, R417, R420). -/

namespace Sys2Proof.Machine

/-! ### SHA-384 -/

/-- Round constants 0 to 19 of SHA-512. -/
def shaK0 : List Word := [
  0x428A2F98D728AE22, 0x7137449123EF65CD, 0xB5C0FBCFEC4D3B2F, 0xE9B5DBA58189DBBC,
  0x3956C25BF348B538, 0x59F111F1B605D019, 0x923F82A4AF194F9B, 0xAB1C5ED5DA6D8118,
  0xD807AA98A3030242, 0x12835B0145706FBE, 0x243185BE4EE4B28C, 0x550C7DC3D5FFB4E2,
  0x72BE5D74F27B896F, 0x80DEB1FE3B1696B1, 0x9BDC06A725C71235, 0xC19BF174CF692694,
  0xE49B69C19EF14AD2, 0xEFBE4786384F25E3, 0x0FC19DC68B8CD5B5, 0x240CA1CC77AC9C65]

/-- Round constants 20 to 39 of SHA-512. -/
def shaK1 : List Word := [
  0x2DE92C6F592B0275, 0x4A7484AA6EA6E483, 0x5CB0A9DCBD41FBD4, 0x76F988DA831153B5,
  0x983E5152EE66DFAB, 0xA831C66D2DB43210, 0xB00327C898FB213F, 0xBF597FC7BEEF0EE4,
  0xC6E00BF33DA88FC2, 0xD5A79147930AA725, 0x06CA6351E003826F, 0x142929670A0E6E70,
  0x27B70A8546D22FFC, 0x2E1B21385C26C926, 0x4D2C6DFC5AC42AED, 0x53380D139D95B3DF,
  0x650A73548BAF63DE, 0x766A0ABB3C77B2A8, 0x81C2C92E47EDAEE6, 0x92722C851482353B]

/-- Round constants 40 to 59 of SHA-512. -/
def shaK2 : List Word := [
  0xA2BFE8A14CF10364, 0xA81A664BBC423001, 0xC24B8B70D0F89791, 0xC76C51A30654BE30,
  0xD192E819D6EF5218, 0xD69906245565A910, 0xF40E35855771202A, 0x106AA07032BBD1B8,
  0x19A4C116B8D2D0C8, 0x1E376C085141AB53, 0x2748774CDF8EEB99, 0x34B0BCB5E19B48A8,
  0x391C0CB3C5C95A63, 0x4ED8AA4AE3418ACB, 0x5B9CCA4F7763E373, 0x682E6FF3D6B2B8A3,
  0x748F82EE5DEFB2FC, 0x78A5636F43172F60, 0x84C87814A1F0AB72, 0x8CC702081A6439EC]

/-- Round constants 60 to 79 of SHA-512. -/
def shaK3 : List Word := [
  0x90BEFFFA23631E28, 0xA4506CEBDE82BDE9, 0xBEF9A3F7B2C67915, 0xC67178F2E372532B,
  0xCA273ECEEA26619C, 0xD186B8C721C0C207, 0xEADA7DD6CDE0EB1E, 0xF57D4F7FEE6ED178,
  0x06F067AA72176FBA, 0x0A637DC5A2C898A6, 0x113F9804BEF90DAE, 0x1B710B35131C471B,
  0x28DB77F523047D84, 0x32CAAB7B40C72493, 0x3C9EBE0A15C9BEBC, 0x431D67C49C100D4C,
  0x4CC5D4BECB3E42B6, 0x597F299CFC657E2A, 0x5FCB6FAB3AD6FAEC, 0x6C44198C4A475817]

def shaK : List Word := shaK0 ++ shaK1 ++ shaK2 ++ shaK3

/-- Initial hash value of SHA-384. -/
def shaInit : List Word := [
  0xCBBB9D5DC1059ED8, 0x629A292A367CD507, 0x9159015A3070DD17, 0x152FECD8F70E5939,
  0x67332667FFC00B31, 0x8EB44A8768581511, 0xDB0C2E0D64F98FA7, 0x47B5481DBEFA4FA4]

def rotr (x : Word) (n : Nat) : Word := x.rotateRight n

/-- The schedule of a block, latest word first; `n` words are still to be added. -/
def shaSchedule : Nat → List Word → List Word
  | 0, ws => ws
  | n + 1, ws =>
    let g (i : Nat) : Word := ws.getD i 0
    let s0 := rotr (g 14) 1 ^^^ rotr (g 14) 8 ^^^ (g 14 >>> 7)
    let s1 := rotr (g 1) 19 ^^^ rotr (g 1) 61 ^^^ (g 1 >>> 6)
    shaSchedule n ((s1 + g 6 + s0 + g 15) :: ws)

/-- One round on the working variables a to h. -/
def shaRound (v : List Word) (kw : Word × Word) : List Word :=
  match v with
  | [a, b, c, d, e, f, g, h] =>
    let t1 := h + (rotr e 14 ^^^ rotr e 18 ^^^ rotr e 41) + ((e &&& f) ^^^ (~~~e &&& g)) + kw.1 + kw.2
    let t2 := (rotr a 28 ^^^ rotr a 34 ^^^ rotr a 39) + ((a &&& b) ^^^ (a &&& c) ^^^ (b &&& c))
    [t1 + t2, a, b, c, d + t1, e, f, g]
  | _ => v

/-- One block of 128 bytes. -/
def shaBlock (h : List Word) (bs : List Byte) : List Word :=
  let ws := (List.range 16).map fun i => BitVec.ofNat 64 (ofBe (slice bs (8 * i) 8))
  let sched := (shaSchedule 64 ws.reverse).reverse
  List.zipWith (· + ·) h ((shaK.zip sched).foldl shaRound h)

/-- The padded message cut into blocks; `n` bounds them. -/
def shaBlocks : Nat → List Byte → List Word → List Word
  | 0, _, h => h
  | n + 1, bs, h => if bs.isEmpty then h else shaBlocks n (bs.drop 128) (shaBlock h (bs.take 128))

/-- SHA-384 of a byte string, in the output order of FIPS 180-4. -/
def sha384 (bs : List Byte) : List Byte :=
  let z := (239 - bs.length % 128) % 128
  let m := bs ++ [0x80] ++ List.replicate z 0 ++ beBytes 16 (8 * bs.length)
  ((shaBlocks (m.length / 128 + 1) m shaInit).flatMap fun w => beBytes 8 w.toNat).take 48

/-- HMAC-SHA-384; a key is at most one block of 128 bytes here. -/
def hmac384 (key msg : List Byte) : List Byte :=
  let k := slice (if 128 < key.length then sha384 key else key) 0 128
  sha384 (k.map (· ^^^ 0x5C) ++ sha384 (k.map (· ^^^ 0x36) ++ msg))

/-- HKDF-Expand: `n` blocks from counter i on. -/
def hkdfBlocks (prk info : List Byte) : Nat → Nat → List Byte → List Byte
  | 0, _, _ => []
  | n + 1, i, prev =>
    let t := hmac384 prk (prev ++ info ++ [BitVec.ofNat 8 i])
    t ++ hkdfBlocks prk info n (i + 1) t

/-- HKDF-SHA-384 (RFC 5869). -/
def hkdf384 (salt ikm info : List Byte) (len : Nat) : List Byte :=
  (hkdfBlocks (hmac384 salt ikm) info ((len + 47) / 48) 1 []).take len

/-! ### P-384 -/

/-- The field prime, the group order, the coefficient b and the base point of P-384. -/
def p384P : Nat := 0xFFFFFFFFFFFFFFFFFFFFFFFFFFFFFFFFFFFFFFFFFFFFFFFFFFFFFFFFFFFFFFFEFFFFFFFF0000000000000000FFFFFFFF
def p384N : Nat := 0xFFFFFFFFFFFFFFFFFFFFFFFFFFFFFFFFFFFFFFFFFFFFFFFFC7634D81F4372DDF581A0DB248B0A77AECEC196ACCC52973
def p384B : Nat := 0xB3312FA7E23EE7E4988E056BE3F82D19181D9C6EFE8141120314088F5013875AC656398D8A2ED19D2A85C8EDD3EC2AEF
def p384G : Point where
  x := 0xAA87CA22BE8B05378EB1C71EF320AD746E1D3B628BA79B9859F741E082542A385502F25DBF55296C3A545E3872760AB7
  y := 0x3617DE4A96262C6F5D9E98BF9292DC29F8F41DBD289A147CE9DA3113B5F0B8C00A60B1CE1D7E819D7A431D7C90EA0E5F

/-- b^e mod m by squaring; `fuel` bounds the bits of e. -/
def powMod (m : Nat) : Nat → Nat → Nat → Nat
  | 0, _, _ => 1 % m
  | fuel + 1, b, e =>
    if e = 0 then 1 % m
    else
      let r := powMod m fuel (b * b % m) (e / 2)
      if e % 2 = 1 then r * b % m else r

/-- The inverse modulo a prime. -/
def invMod (m x : Nat) : Nat := powMod m 384 (x % m) (m - 2)

/-- a − b modulo the field prime, for a and b below it. -/
def subP (a b : Nat) : Nat := (a + p384P - b) % p384P

/-- Whether a point lies on the curve. -/
def onCurve (q : Point) : Bool :=
  decide (q.x < p384P ∧ q.y < p384P)
    && q.y * q.y % p384P == (q.x * q.x * q.x + (p384P - 3) * q.x + p384B) % p384P

/-- A point in Jacobian coordinates: (x / z², y / z³), or the point at infinity where z = 0. -/
abbrev Jac := Nat × Nat × Nat

def infPt : Jac := (1, 1, 0)

def mulP (a b : Nat) : Nat := a * b % p384P

/-- Twice a point; the coefficient a of the curve is −3. -/
def dblPt (q : Jac) : Jac :=
  let (x, y, z) := q
  let d := mulP z z
  let g := mulP y y
  let b := mulP x g
  let a := mulP (3 * subP x d) (x + d)
  let u := subP (mulP a a) (8 * b % p384P)
  (u, subP (mulP a (subP (4 * b % p384P) u)) (8 * mulP g g % p384P), mulP (2 * y) z)

/-- The sum of two points. -/
def addPt (q r : Jac) : Jac :=
  let (x1, y1, z1) := q
  let (x2, y2, z2) := r
  if z1 = 0 then r
  else if z2 = 0 then q
  else
    let u1 := mulP x1 (mulP z2 z2)
    let u2 := mulP x2 (mulP z1 z1)
    let s1 := mulP y1 (mulP z2 (mulP z2 z2))
    let s2 := mulP y2 (mulP z1 (mulP z1 z1))
    if u1 = u2 then (if s1 = s2 then dblPt q else infPt)
    else
      let h := subP u2 u1
      let hh := mulP h h
      let t := subP s2 s1
      let v := mulP u1 hh
      let x := subP (subP (mulP t t) (mulP h hh)) (2 * v % p384P)
      (x, subP (mulP t (subP v x)) (mulP s1 (mulP h hh)), mulP (mulP z1 z2) h)

/-- k times a point; `fuel` bounds the bits of k. -/
def mulPt : Nat → Nat → Jac → Jac
  | 0, _, _ => infPt
  | fuel + 1, k, q =>
    if k = 0 then infPt
    else
      let r := mulPt fuel (k / 2) (dblPt q)
      if k % 2 = 1 then addPt r q else r

def Point.jac (q : Point) : Jac := (q.x, q.y, 1)

/-- The point of Jacobian coordinates; none at infinity. -/
def affine (q : Jac) : Option Point :=
  let (x, y, z) := q
  if z = 0 then none
  else
    let w := invMod p384P z
    some { x := x * (w * w) % p384P, y := y * (w * (w * w)) % p384P }

/-- The public point of a private scalar. -/
def publicOf (d : Nat) : Point := (affine (mulPt 384 d (Point.jac p384G))).getD { x := 0, y := 0 }

/-- The x coordinate of an ECDH shared point. -/
def ecdh (d : Nat) (q : Point) : Nat := ((affine (mulPt 384 d (Point.jac q))).getD { x := 0, y := 0 }).x

/-- ECDSA P-384 verification of a signature over SHA-384 of a byte string (FIPS 186-5). -/
def ecdsaVerify (q : Point) (msg : List Byte) (sg : Sig) : Bool :=
  if sg.r = 0 ∨ p384N ≤ sg.r ∨ sg.s = 0 ∨ p384N ≤ sg.s ∨ !onCurve q then false
  else
    let z := ofBe (sha384 msg)
    let w := invMod p384N sg.s
    match affine (addPt (mulPt 384 (z * w % p384N) (Point.jac p384G)) (mulPt 384 (sg.r * w % p384N) (Point.jac q))) with
    | some t => t.x % p384N == sg.r
    | none => false

/-- An ECDSA P-384 signature by a private scalar, with a nonce that FIPS 186-5 leaves to the signer (log entry 4). -/
def ecdsaSign (d : Nat) (msg : List Byte) (nonce : Nat) : Sig :=
  let r := (publicOf nonce).x % p384N
  { r, s := invMod p384N nonce * (ofBe (sha384 msg) + r * d) % p384N }

/-- A P-384 integer of a record (R295). -/
def leInt (bs : List Byte) (off : Nat) : Nat := recFld bs off 48

/-- The 96 bytes of a key, x then y. -/
def keyBytes (q : Point) : List Byte := leBytes 48 q.x ++ leBytes 48 q.y

/-- A key of a record, and a signature of one. -/
def keyAt (bs : List Byte) (off : Nat) : Point := { x := leInt bs off, y := leInt bs (off + 48) }
def sigAt (bs : List Byte) (off : Nat) : Sig := { r := leInt bs off, s := leInt bs (off + 48) }

end Sys2Proof.Machine
end

