-- ==== Sys2Proof/Machine/Record.lean ====
section
/-! DEFINITION. The configuration record: its entries and its checks (R408 to R411, R441). -/

namespace Sys2Proof.Machine

/-- The entries of a TLV area from a byte on: type and value; none when an entry leaves the area. `n` bounds the entries. -/
def tlvEntries : Nat → List Byte → Option (List (Nat × List Byte))
  | 0, _ => some []
  | n + 1, bs =>
    if bs.isEmpty then some []
    else
      let len := recFld bs 2 2
      let total := ceilTo (4 + len) 8
      if bs.length < total then none
      else match tlvEntries n (bs.drop total) with
        | some es => some ((recFld bs 0 2, slice bs 4 len) :: es)
        | none => none

/-- The TLV area of a record. -/
def tlvArea (r : List Byte) : List Byte := slice r 256 (recFld r 8 4)

def recordEntries (r : List Byte) : Option (List (Nat × List Byte)) := tlvEntries (recFld r 8 4 / 8 + 1) (tlvArea r)

/-- The value of a type, empty when the record has none. -/
def tlv (r : List Byte) (ty : Nat) : List Byte :=
  match recordEntries r with
  | some es => (es.lookup ty).getD []
  | none => []

/-- Lengths that a value may have (R409). -/
def tlvLenOk (ty len : Nat) : Bool :=
  match ty with
  | 0x8001 => len % 48 == 0 && decide (1 ≤ len / 48 ∧ len / 48 ≤ 16)
  | 0x8002 => len == 16
  | 0x8003 => len == 54
  | 0x8004 => len % 2 == 0 && decide (1 ≤ len / 2 ∧ len / 2 ≤ 4)
  | 0x8005 | 0x8006 | 0x8007 => len == 1
  | 0x8008 => len == 5
  | 0x8009 => len % 48 == 0 && decide (1 ≤ len / 48 ∧ len / 48 ≤ 4)
  | 0x000A => len % 2 == 0 && decide (1 ≤ len / 2 ∧ len / 2 ≤ 5)
  | 0x000B => len == 8
  | _ => true

/-- REIN_LIMIT of a power class code (R441). -/
def reinOf (code : Nat) : Option Nat :=
  match code with
  | 1 => some 128
  | 2 => some 108
  | 3 => some 88
  | 4 => some 68
  | _ => none

/-- The types that must appear exactly once. -/
def onceTypes : List Nat := [0x8001, 0x8002, 0x8003, 0x8004, 0x8005, 0x8006, 0x8007, 0x8008, 0x8009]

/-- Whether values are in the ranges that R409 and R441 give. -/
def tlvValueOk (e : Nat × List Byte) : Bool :=
  match e.1 with
  | 0x8004 => (List.range (e.2.length / 2)).all fun i => recFld e.2 (2 * i) 2 != 0
  | 0x8005 => (reinOf (recFld e.2 0 1)).isSome
  | 0x8006 => decide (recFld e.2 0 1 ≤ 1)
  | 0x8007 => recFld e.2 0 1 != 0
  | _ => true

/-- Whether a record has the form of R408 and R409. -/
def recordFormOk (r : List Byte) : Bool :=
  slice r 0 4 == [0x4B, 0x58, 0x43, 0x46] && recFld r 4 2 == 1 && decide (recFld r 6 2 ≤ 1) && recFld r 12 4 == 0
    && recFld r 8 4 % 8 == 0 && decide (recFld r 8 4 ≤ 1048576) && (slice r 208 48).all (· == 0)
    && decide (256 + recFld r 8 4 ≤ r.length)
    && match recordEntries r with
      | none => false
      | some es =>
        let count (t : Nat) : Nat := (es.filter fun e => e.1 == t).length
        onceTypes.all (fun t => count t == 1) && decide (count 0x000A ≤ 1) && decide (count 0x000B ≤ 1)
          && es.all (fun e => tlvLenOk e.1 e.2.length && tlvValueOk e)
          && es.all fun e => decide (e.1 < 0x8000) || onceTypes.contains e.1

/-- CLAIM of a record. -/
def recordClaim (r : List Byte) : Bool := recFld r 6 2 % 2 == 1

/-- The fault that a record raises (R410); none when the boot ROM accepts it. -/
def recordFault (owner r : List Byte) : Option Nat :=
  let key := keyAt r 16
  if !recordFormOk r then some 0x0A01
  else if !ecdsaVerify key (slice r 0 112 ++ tlvArea r) (sigAt r 112) then some 0x0A02
  else if (owner.isEmpty && recordClaim r) || (!owner.isEmpty && sha384 (keyBytes key) == owner) then none
  else some 0x0A03

/-- The configuration measurement (R411). -/
def recordMeasurement (r : List Byte) : List Byte := if r.isEmpty then [] else sha384 (slice r 0 256 ++ tlvArea r)

/-- The hashes of a list of 48-byte values. -/
def hashes (v : List Byte) : List (List Byte) := (List.range (v.length / 48)).map fun i => slice v (48 * i) 48

def publishers (r : List Byte) : List (List Byte) := hashes (tlv r 0x8001)
def mgmtKeys (r : List Byte) : List (List Byte) := hashes (tlv r 0x8009)

/-- OPTIONS (R409): ALLOW_CROSS_STEPPING and DUAL_RESERVE; absent means 0. -/
def allowCross (r : List Byte) : Bool := recFld (tlv r 0x000B) 0 4 % 2 == 1
def dualReserve (r : List Byte) : Nat := recFld (tlv r 0x000B) 4 4

end Sys2Proof.Machine
end

