-- ==== Sys2Proof/Machine/Kdmp.lean ====
section
/-! DEFINITION. KDMP requests: sessions, tags, sequence numbers and the kept response (R416 to R419). -/

namespace Sys2Proof.Machine

/-- The request's answer: a status and a body. -/
abbrev Answer := Status × List Byte

/-- A response leaves for the host. -/
def State.respond (s : State) (kind : Nat) (session : BitVec 16) (seq : BitVec 32) (a : Answer) : State :=
  s.emit (.response kind session seq a.1 a.2)

/-- Firmware runs from the Fabric phase on (R404, R418). -/
def State.firmwareRuns (s : State) : Bool := decide (7 ≤ s.ms.phase.toNat)

def State.session (s : State) (n : BitVec 16) : Option Session := s.ms.sessions.find? fun x => x.num == n

def State.modSession (s : State) (n : BitVec 16) (f : Session → Session) : State :=
  { s with ms := { s.ms with sessions := s.ms.sessions.map fun x => if x.num = n then f x else x } }

def State.countAuth (s : State) : State := { s with ms := { s.ms with authFail := s.ms.authFail + 1 } }

/-- A request leaves the KDMP store (R369). -/
def State.takeDatagram (s : State) : State := { s with hp := { s.hp with kdmp := s.hp.kdmp.tail } }

/-- A request that needs no session (R418): firmware messages before firmware runs, and boot ROM messages outside the Firmware
phase, are answered REFUSED(TYPE). -/
def openRequest (kind : Nat) (rom : Bool) (s : State) (f : State → Answer × State) : State :=
  let s := s.takeDatagram
  if (if rom then s.ms.phase = 6 else s.firmwareRuns = true) then
    let (a, s) := f s
    s.respond kind 0 0 a
  else s.respond kind 0 0 (.refused .type, [])

/-- A request under a session (R416 to R418). -/
def sessionRequest (kind : Nat) (k : Kdmp) (s : State) (f : State → Answer × State) : State :=
  let s := s.takeDatagram
  if !s.firmwareRuns then s.respond kind k.session k.seq (.refused .type, [])
  else match s.session k.session with
    | none => s.respond kind k.session k.seq (.refused .auth, [])
    | some x =>
      match x.key with
      | none => s.respond kind k.session k.seq (.refused .auth, [])
      | some key =>
        if !k.auth then s.respond kind k.session k.seq (.refused .auth, [])
        else if (hmac384 key k.msg).take 16 ≠ k.tag then s.countAuth
        else match x.kept with
          | some (kind', seq, st, body) =>
            if seq = k.seq then s.respond kind' k.session seq (st, body)
            else if k.seq.toNat ≤ seq.toNat then { s with ms := { s.ms with replay := s.ms.replay + 1 } }
            else
              let (a, s) := f s
              (s.modSession k.session fun x => { x with lastSeq := some k.seq, kept := some (kind, k.seq, a.1, a.2) }).respond
                kind k.session k.seq a
          | none =>
            let (a, s) := f s
            (s.modSession k.session fun x => { x with lastSeq := some k.seq, kept := some (kind, k.seq, a.1, a.2) }).respond
              kind k.session k.seq a

/-- A session command that a fail-stop refuses (R376). -/
def liveRequest (kind : Nat) (k : Kdmp) (s : State) (f : State → Answer × State) : State :=
  sessionRequest kind k s fun s => if s.cu.failstop then ((.refused .failed, []), s) else f s

/-- MS_KDMP_STAT. -/
def kdmpStatWord (m : Ms) : Word :=
  fw 63 56 m.sessions.length ||| fw 55 32 (min m.authFail (2 ^ 24 - 1)) ||| fw 31 0 (min m.replay (2 ^ 32 - 1))

/-- LOAD_REPORT of a weight or program load (R418). -/
def State.loadReport (s : State) (ident : List Byte) (refused : Bool) (reason : Nat) : State :=
  s.report 0x43 (ident ++ [if refused then 5 else 1, BitVec.ofNat 8 reason])

end Sys2Proof.Machine
end

