-- ==== Sys2Proof/Machine/Slots.lean ====
section
/-! DEFINITION. The host port's sections, response records, slots and notices (R353 to R367). -/

namespace Sys2Proof.Machine

/-! ### Sections and registers (R353, R371) -/

def State.sec (s : State) (i : Nat) : Section := vget s.hp.sections i

def State.modSec (s : State) (i : Nat) (f : Section → Section) : State :=
  { s with hp := { s.hp with sections := vmod s.hp.sections i f } }

def Section.en (x : Section) : Bool := bit x.cfg 63
def Section.size (x : Section) : Nat := 64 * 2 ^ fld x.cfg 61 58
def Section.base (x : Section) : Nat := fld x.cfg 57 42

/-- Records of one response ring. -/
def Section.rsize (x : Section) : Nat := 64 * 2 ^ fld x.cfg 17 14

/-- The queue pair of a section. QPN is taken modulo the 1,024 queue pairs (log entry 35). -/
def Section.qp (x : Section) : Nat := fld x.cfg 41 18 % 1024

/-- A record at a section index. -/
def Section.record (x : Section) (ring : Mem) (idx : Nat) : List Byte := Mem.read ring (256 * (x.base + idx)) 256

def Hp.linkUp (h : Hp) : Bool := bit h.portStatus 1
def Hp.admitter (h : Hp) : Bool := bit h.admCfg 48
def Hp.emitter (h : Hp) : Bool := bit h.admCfg 47
def Hp.deferAll (h : Hp) : Bool := bit h.admCtrl 1

/-- A fault of the host port that is reported (R372). -/
def State.hpFault (s : State) (code : Nat) : State :=
  let w := fw 63 48 code ||| fw 31 0 s.now.toNat
  ({ s with hp := { s.hp with fault := firstFault s.hp.fault w } } : State).faultReport code w

/-! ### Response records (R360) -/

/-- A response record but for its VSEQ, which it takes when it is written. -/
def responseRecord (s : State) (sec status reason arg : Nat) (reqId : List Byte) (pos : Nat) (tokens : List (BitVec 32))
    (flags : Nat) (wgen : BitVec 16) (consumed : Nat) : List Byte :=
  let toks := ((tokens.map fun (t : BitVec 32) => leBytes 4 t.toNat).flatten ++ List.replicate 24 0).take 24
  [BitVec.ofNat 8 status, BitVec.ofNat 8 reason] ++ leBytes 4 arg ++ slice reqId 0 8 ++ leBytes 4 pos
    ++ [BitVec.ofNat 8 tokens.length, BitVec.ofNat 8 flags] ++ leBytes 2 wgen.toNat ++ toks ++ wordBytes s.now
    ++ leBytes 2 consumed ++ [BitVec.ofNat 8 sec] ++ List.replicate 5 0

/-- Whether the mirror tap runs (CU_MIRROR_CFG.EN). -/
def State.mirrorOn (s : State) : Bool := bit s.cu.mirrorCfg 63

/-- Next VSEQ of a role, its acknowledged records, and the records that wait. -/
def Section.vseq (x : Section) (emitter : Bool) : Nat := if emitter then x.vseqE else x.vseqA
def Section.acked (x : Section) (emitter : Bool) : Nat := if emitter then x.ackE else x.ackA
def Section.waiting (x : Section) (emitter : Bool) : List RespRec := if emitter then x.tokenRecs else x.statusRecs

/-- The journal entry of a record (R391): the record, then NEXT, CONSUMED and the acknowledged VSEQ of both roles. -/
def journalEntry (x : Section) (r : List Byte) : List Byte :=
  (r ++ leBytes 8 x.next ++ leBytes 8 x.next ++ leBytes 8 x.ackA ++ leBytes 8 x.ackE ++ List.replicate 160 0).take 256

/-- Where the journal entry of a record lies on the partner (R388). -/
def journalAddr (s : State) (sec : Nat) (emitter : Bool) (vseq : Nat) : Nat :=
  s.cu.mirrorArea.toNat + 0x1000000 + 0x40000 * (2 * sec + if emitter then 1 else 0) + 256 * (vseq % 1024)

/-- A formed record takes its VSEQ, passes the tap when mirroring is on, and waits to be written (R360, R361, R391). -/
def formRecord (s : State) (sec : Nat) (emitter : Bool) (body : List Byte) : State :=
  let x := s.sec sec
  let v := x.vseq emitter
  let r := leBytes 2 v ++ body
  let s := if s.mirrorOn then tapRow s 3 (journalAddr s sec emitter v) (journalEntry x r) true else s
  let e : RespRec := { vseq := v, journal := if s.mirrorOn then s.cu.tapped else 0, data := r }
  s.modSec sec fun x =>
    if emitter then { x with vseqE := v + 1, tokenRecs := x.tokenRecs ++ [e] }
    else { x with vseqA := v + 1, statusRecs := x.statusRecs ++ [e] }

/-- Records that a section and role hold at most: 1,024 while the tap runs, else the store of 4,096 (R361, R391). -/
def recordRoom (s : State) (sec : Nat) (emitter : Bool) : Bool :=
  decide (((s.sec sec).waiting emitter).length < if s.mirrorOn then 1024 else 4096)

/-- A status record of a section (R361); the admitter's records carry CONSUMED, which is NEXT (R353). -/
def statusRecord (s : State) (sec status reason arg : Nat) (reqId : List Byte) (wgen : BitVec 16) : State :=
  formRecord s sec false (responseRecord s sec status reason arg reqId 0 [] 2 wgen (s.sec sec).next)

def State.reqStat (s : State) (hi lo : Nat) : State := { s with hp := { s.hp with reqStat := satAdd s.hp.reqStat hi lo 1 } }

/-- A request is refused (R359). -/
def refuseRequest (s : State) (sec : Nat) (r : List Byte) (reason : Nat) : State :=
  (statusRecord s sec 3 reason 0 (slice r 8 8) 0).reqStat 27 12

/-! ### Slots (R356, R362) -/

def State.slotOf (s : State) (i : Nat) : Slot := vget s.hp.slots i

def State.modSlot (s : State) (i : Nat) (f : Slot → Slot) : State := { s with hp := { s.hp with slots := vmod s.hp.slots i f } }

/-- The LIVE generation; 0 while there is none (R306, log entry 36). -/
def State.liveWgen (s : State) : BitVec 16 :=
  match s.ws.gens.toList.find? (fun g => g.st == 2) with
  | some g => g.wgen
  | none => 0

def freeSlots (h : Hp) : Nat := (h.slots.toList.filter fun x => x.st == .free).length
def usedSlots (h : Hp) (c : Nat) : Nat := (h.slots.toList.filter fun x => x.st != .free && x.cls == c).length

/-- Slots of a slot group that hold a request. -/
def groupSlots (h : Hp) (g : Nat) : List Slot := ((List.range 8).map fun i => vget h.slots (8 * g + i)).filter fun x => x.st != .free

/-- The lowest free slot of a group that is empty or whose admitted slots are all of a generation (R356). -/
def pickSlot (h : Hp) (wgen : BitVec 16) : Option Nat :=
  (List.range 512).find? fun i => (vget h.slots i).st == .free && (groupSlots h (i / 8)).all fun x => x.wgen == wgen

/-- Position blocks that a request is charged. -/
def chargeOf (h : Hp) (r : List Byte) : Nat :=
  let per := fld h.admCfg 15 0
  (recFld r 24 4 + recFld r 4 4 + per - 1) / per

/-- Whether a class may take a slot (R356). -/
def mayTake (s : State) (c blocks : Nat) : Option Nat :=
  let h := s.hp
  let held := (((List.range 4).filter (· != c)).map fun d => fld (vget h.cls d) 63 54 - usedSlots h d).foldl (· + ·) 0
  if freeSlots h ≤ held ∨ fld (vget h.cls c) 53 44 ≤ usedSlots h c ∨ h.freeBlocks.toNat < blocks then none
  else pickSlot h s.liveWgen

/-- The word of the page-map window that holds an entry of a slot (R195, R203). -/
def entryWord (slot page : Nat) : Nat := 2048 * slot + page / 2

/-- Every entry of a slot gets V = 0 (R195): each word that is not zero yet is written. -/
def clearPages (s : State) (slot : Nat) : State :=
  ((List.range 2048).filter fun i => Mem.word s.pageMap (8 * entryWord slot (2 * i)) != 0).foldl
    (fun s i => pageMapWrite (BitVec.ofNat 20 (entryWord slot (2 * i))) 0 s) s

/-- Firmware writes one entry of a slot. -/
def writeEntry (s : State) (slot : Nat) (e : BitVec 12 × BitVec 32) : State :=
  let w := entryWord slot e.1.toNat
  let old := Mem.word s.pageMap (8 * w)
  pageMapWrite (BitVec.ofNat 20 w) (if e.1.toNat % 2 = 0 then setFld old 31 0 e.2.toNat else setFld old 63 32 e.2.toNat) s

/-! ### Notices and program rings (R362 to R364, log entry 37) -/

/-- The messages of slot notices: a kind (1 OPEN, 2 CANCEL, 3 END, 4 READY) and the slot. -/
def noticeHead (kind slot : Nat) : List Byte := [BitVec.ofNat 8 kind, 0] ++ leBytes 2 slot ++ [0, 0, 0, 0]

def openNotice (slot : Nat) (wgen : BitVec 16) (blocks : Nat) (gen : BitVec 8) (sec : Nat) (r : List Byte) : List Byte :=
  [1, 0] ++ leBytes 2 slot ++ leBytes 2 wgen.toNat ++ [gen, BitVec.ofNat 8 sec] ++ leBytes 4 blocks ++ List.replicate 4 0 ++ slice r 0 256

/-- The open send endpoints of one role: those opened with OPEN_RELAY, or the others. -/
def noticeEps (s : State) (relay : Bool) : List Nat :=
  (List.range 256).filter fun e => (s.sendEp .port e).st == .opened && bit s.hp.relay e == relay

def sendNotices (s : State) (eps : List Nat) (bytes : List Byte) : State := eps.foldl (fun s e => portMessage s e bytes) s

/-- The OPEN record of an admission ring: slot, WGEN, B and FOLLOW in 32 bytes, then the request record (R364). -/
def openRecord (slot : Nat) (wgen : BitVec 16) (blocks : Nat) (follow : Bool) (r : List Byte) : List Byte :=
  leBytes 2 slot ++ leBytes 2 wgen.toNat ++ leBytes 4 blocks ++ [if follow then 1 else 0] ++ List.replicate 23 0 ++ slice r 0 256

/-- The PROMPT records of a prompt, with at most 16,376 tokens each. `n` bounds the records. -/
def promptRecords : Nat → State → Nat → Nat → List (BitVec 32) → State
  | 0, s, _, _, _ => s
  | n + 1, s, slot, pos, toks =>
    if toks.isEmpty then s
    else
      let now := toks.take 16376
      let s := admissionRecord s 2
        (leBytes 2 slot ++ [0, 0] ++ leBytes 4 pos ++ leBytes 4 now.length ++ (now.map fun (t : BitVec 32) => leBytes 4 t.toNat).flatten)
      promptRecords n s slot (pos + now.length) (toks.drop 16376)

/-- A prompt is delivered. -/
def deliverPrompt (s : State) (slot : Nat) (toks : List (BitVec 32)) : State :=
  (promptRecords (toks.length / 16376 + 1) s slot 0 toks).modSlot slot fun x => { x with prompt := true }

/-- A slot counts as open when every member has answered and its prompt has been delivered (R362). -/
def openIfReady (s : State) (slot : Nat) : State :=
  let x := s.slotOf slot
  if x.st = .opening ∧ x.awaiting.isEmpty ∧ x.prompt then
    s.modSlot slot fun x => { x with st := .opened, readyNs := some s.now, fresh := true }
  else s

/-- The tokens of a request that carries its prompt (R354). -/
def inlinePrompt (r : List Byte) : List (BitVec 32) :=
  (List.range (recFld r 24 4)).map fun i => BitVec.ofNat 32 (recFld r (128 + 4 * i) 4)

/-- Row 1 of a slot's waymark, its request record, is written when the slot opens (R390). -/
def waymarkRequest (s : State) (slot : Nat) (r : List Byte) : State :=
  if s.mirrorOn then s.tierWrite (s.cu.mirrorStage.toNat + 0x1000 + 512 * slot + 256) (slice r 0 256) else s

/-- A request is admitted to a slot (R356, R362): ADMITTED, the slot's new page generation, the OPEN notices and record, and an
inline prompt. -/
def admitTo (s : State) (sec slot : Nat) (r : List Byte) : State :=
  let wgen := s.liveWgen
  let blocks := chargeOf s.hp r
  let follow := bit (r.getD 3 0) 2
  let eps := noticeEps s false
  let gen := vget s.tm.slotGen slot
  let s := if gen = 0xFF then clearPages s slot else s
  let s : State := { s with
    tm := { s.tm with slotGen := vset s.tm.slotGen slot (gen + 1) }
    hp := { s.hp with
      freeBlocks := s.hp.freeBlocks - BitVec.ofNat 32 blocks
      slots := vset s.hp.slots slot { st := .opening, cls := fld (r.getD 3 0) 1 0, follow, wgen, sec, blocks, record := r, awaiting := eps } } }
  let s := (statusRecord s sec 1 0 slot (slice r 8 8) wgen).reqStat 63 44
  let s := waymarkRequest s slot r
  let s := sendNotices s eps (openNotice slot wgen blocks (gen + 1) sec r)
  let s := admissionRecord s 1 (openRecord slot wgen blocks follow r)
  let s := if recFld r 32 8 = 0 then deliverPrompt s slot (inlinePrompt r) else s
  openIfReady s slot

/-- A slot is freed (R362, R366): its blocks return, its entries are cleared, and END goes to the members. -/
def freeSlot (s : State) (slot : Nat) (eps : List Nat) : State :=
  let x := s.slotOf slot
  if x.st = .free then s
  else
    let s := clearPages s slot
    let s : State := { s with hp := { s.hp with
      freeBlocks := s.hp.freeBlocks + BitVec.ofNat 32 x.blocks, slots := vset s.hp.slots slot {} } }
    sendNotices s eps (noticeHead 3 slot)

/-- An open request is cancelled (R367): CANCEL notices, and a CANCEL record in the admission ring. -/
def cancelSlot (s : State) (slot : Nat) : State :=
  admissionRecord (sendNotices s (noticeEps s false) (noticeHead 2 slot)) 4 (leBytes 2 slot ++ List.replicate 30 0)

/-- A deferred request leaves its class queue. -/
def dropDeferred (s : State) (c : Nat) (d : Deferred) : State :=
  let s := { s with hp := { s.hp with queues := vmod s.hp.queues c fun q => q.erase d } }
  s.modSec d.sec fun x => { x with deferred := x.deferred.erase d.num }

/-- Every deferred request is refused with a reason (R290, R358). -/
def refuseDeferred (s : State) (reason : Nat) : State :=
  (List.range 4).foldl (fun s c => (vget s.hp.queues c).foldl (fun s d => refuseRequest (dropDeferred s c d) d.sec d.record reason) s) s

/-- Every request of the partition that has no final answer is refused, by the admitter, and every slot is free (R290, R394). A CLOSING slot
has had its FINAL record. -/
def releaseSlots (s : State) (reason : Nat) (eps : List Nat) : State :=
  let answered (x : Slot) : Bool := !s.hp.admitter || x.st == .closing
  ((List.range 512).filter fun i => (s.slotOf i).st != .free).foldl (fun s i =>
    let x := s.slotOf i
    freeSlot (if answered x then s else refuseRequest s x.sec x.record reason) i eps) (if s.hp.admitter then refuseDeferred s reason else s)

/-! ### Token records (R366) -/

/-- The tokens held for a slot go into one record. -/
def formTokens (s : State) (slot : Nat) (final : Option Nat) : State :=
  let x := s.slotOf slot
  let consumed := if s.hp.admitter then (s.sec x.sec).next else 0
  let flags := (if final.isSome then 1 else 0) + if s.hp.admitter then 2 else 0
  let s := formRecord s x.sec true
    (responseRecord s x.sec 1 (final.getD 0) slot (slice x.record 8 8) x.tokenPos.toNat x.tokens flags x.wgen consumed)
  s.modSlot slot fun y => { y with tokens := [] }

/-! ### The service record (R389) -/

def BundleSrc.bytes (b : BundleSrc) : List Byte := leBytes 4 b.rkey.toNat ++ leBytes 8 b.raddr.toNat ++ leBytes 8 b.length.toNat

/-- The service record: 4,096 bytes. -/
def serviceRecord (s : State) : List Byte :=
  let roles := (if s.hp.admitter then 1 else 0) + (if s.hp.emitter then 2 else 0) + (if s.ws.load.reader then 4 else 0)
    + (if s.hp.mac != 0 then 8 else 0) + if bit s.fi.timeCfg 47 then 16 else 0
  let copy (wgen : BitVec 16) (b : BundleSrc) : List Byte := leBytes 4 wgen.toNat ++ b.bytes ++ List.replicate 8 0
  let prog : List Byte := match s.prog with
    | some p => p.src.bytes
    | none => List.replicate 20 0
  let head := leBytes 2 s.svc.toNat ++ leBytes 2 s.pinc.toNat ++ leBytes 2 s.chip.toNat ++ [BitVec.ofNat 8 roles, 0]
    ++ leBytes 8 (fld s.hp.mac 47 0) ++ leBytes 4 (fld s.hp.ip4 31 0) ++ leBytes 8 s.hp.ip6Lo.toNat ++ leBytes 8 s.hp.ip6Hi.toNat
  head ++ prog ++ List.replicate 8 0
    ++ (s.ws.sets.toList.map fun (x : WsSet) => copy x.wgen0 x.src0 ++ copy x.wgen1 x.src1).flatten
    ++ (s.hp.sections.toList.map fun (x : Section) => wordBytes x.cfg ++ wordBytes x.raddr ++ wordBytes x.rkey ++ List.replicate 8 0).flatten
    ++ List.replicate 2496 0

/-- Firmware writes the service record into staging, at program load and at each completed weight load (R389). -/
def writeServiceRecord (s : State) : State :=
  if s.mirrorOn then s.tierWrite s.cu.mirrorStage.toNat (serviceRecord s) else s

end Sys2Proof.Machine
end

