-- ==== Sys2Proof/Machine/Weights.lean ====
section
/-! DEFINITION. Weight loads: the manifest and its checks, generations, chunks, and the messages between reader and members
(R292 to R313). -/

namespace Sys2Proof.Machine

/-! ### Bundles (R295 to R298) -/

/-- Bytes of a chunk. -/
def chunkBytes : Nat := 4194304

def manifestChunks (m : List Byte) : Nat := recFld m 72 4
def manifestPayload (m : List Byte) : Nat := recFld m 80 8

/-- Record of a chunk: after 256 bytes and the tensor table. -/
def chunkRecord (m : List Byte) (i : Nat) : Nat := 256 + 64 * recFld m 76 4 + 64 * i
def chunkDigest (m : List Byte) (i : Nat) : List Byte := slice m (chunkRecord m i) 48
def wsChunkLen (m : List Byte) (i : Nat) : Nat := recFld m (chunkRecord m i + 48) 4

/-- Whether a bundle header has the form of R295; `limit` is LENGTH of the load command, where it is known. -/
def headerOk (kind : Nat) (h : List Byte) (limit : Option Nat) : Bool :=
  let mlen := recFld h 16 4
  slice h 0 4 == [0x41, 0x49, 0x43, 0x58] && recFld h 4 2 == 1 && recFld h 6 1 == kind && recFld h 7 1 == 0
    && (slice h 40 24).all (· == 0) && (slice h 256 256).all (· == 0)
    && recFld h 8 8 % 4096 == 0 && recFld h 24 8 % 4096 == 0 && decide (mlen ≤ 75497472)
    && decide (1 ≤ recFld h 20 4 ∧ recFld h 20 4 ≤ 1048575) && decide (recFld h 8 8 + mlen ≤ recFld h 24 8)
    && match limit with
      | some l => decide (recFld h 24 8 + recFld h 32 8 ≤ l)
      | none => true

/-- Whether a manifest has the form of R297, repeats its header (R296) and gives every chunk its size (R298). -/
def manifestOk (kind : Nat) (h m : List Byte) : Bool :=
  let n := manifestChunks m
  let len := manifestPayload m
  slice m 0 4 == [0x41, 0x4D, 0x4E, 0x46] && recFld m 4 2 == 1 && recFld m 6 1 == kind && recFld m 7 1 == 0
    && (slice m 160 96).all (· == 0) && decide (1 ≤ recFld m 76 4 ∧ recFld m 76 4 ≤ 65536)
    && n == recFld h 20 4 && len == recFld h 32 8 && n == (len + chunkBytes - 1) / chunkBytes
    && decide (chunkRecord m n ≤ m.length)
    && (List.range n).all fun i => wsChunkLen m i == min chunkBytes (len - i * chunkBytes)

/-- The checks of R296 on a weight-set manifest, in order: the reason of the first that fails. -/
def manifestReason (s : State) (set : Nat) (h m : List Byte) (limit : Option Nat) : Option Nat :=
  let key := keyAt h 160
  if !headerOk 2 h limit || m.length != recFld h 16 4 then some 1
  else if !(publishers s.ms.record).contains (sha384 (keyBytes key)) then some 2
  else if !ecdsaVerify key m (sigAt h 64) then some 3
  else if !manifestOk 2 h m then some 1
  else if slice m 24 48 ≠ (vget s.ws.sets set).digest then some 4
  else none

/-! ### Members and keepers (R299) -/

/-- A placement entry (R299). -/
structure Placement where
  set : BitVec 4
  chunk : BitVec 20
  off : BitVec 12
  len1 : BitVec 12
  ta : BitVec 37
deriving DecidableEq, Repr

/-- The fields of a placement entry (R299). -/
def Placement.ofWord (w : BitVec 128) : Placement :=
  let f (hi lo : Nat) : Nat := w.toNat / 2 ^ lo % 2 ^ (hi - lo + 1)
  { set := BitVec.ofNat 4 (f 127 124), chunk := BitVec.ofNat 20 (f 123 104), off := BitVec.ofNat 12 (f 103 92)
    len1 := BitVec.ofNat 12 (f 91 80), ta := BitVec.ofNat 37 (f 76 40) }

/-- The placement table of a section set. -/
def placementEntries (x : ProgSections) : List Placement := x.placement.map Placement.ofWord

/-- The service IDs of the partition's members. -/
def State.members (s : State) : List (BitVec 16) :=
  match s.sections with
  | some p => p.members
  | none => []

/-- The other members. -/
def State.others (s : State) : List (BitVec 16) := s.members.filter (· != s.svc)

/-- The placement of a member. -/
def State.placementOf (s : State) (svc : BitVec 16) : List Placement :=
  match s.prog with
  | some p => match p.sections.lookup svc with
    | some x => placementEntries x
    | none => []
  | none => []

/-- The chunks of a set that a member keeps. -/
def keptChunks (s : State) (svc : BitVec 16) (set : Nat) : List Nat :=
  ((s.placementOf svc).filter fun e => e.set.toNat == set).map (fun e => e.chunk.toNat) |>.eraseDups

def keeps (s : State) (svc : BitVec 16) (set chunk : Nat) : Bool :=
  (s.placementOf svc).any fun e => e.set.toNat == set && e.chunk.toNat == chunk

/-- The members that a load writes: all, or for DIRECT this package. -/
def loadMembers (s : State) : List (BitVec 16) := if s.ws.load.direct then [s.svc] else s.svc :: s.others

/-- Those of them that keep a chunk of the set. -/
def loadKeepers (s : State) : List (BitVec 16) :=
  (loadMembers s).filter fun m => !(keptChunks s m s.ws.load.set.toNat).isEmpty

/-! ### State of a load -/

def State.modLoad (s : State) (f : WsLoad → WsLoad) : State := { s with ws := { s.ws with load := f s.ws.load } }

def State.modSet (s : State) (i : Nat) (f : WsSet → WsSet) : State := { s with ws := { s.ws with sets := vmod s.ws.sets i f } }

/-- Whether a load is in progress. -/
def WsLoad.running (l : WsLoad) : Bool := decide (1 ≤ l.phase.toNat ∧ l.phase.toNat ≤ 5)

/-- The copy that a load writes: what the entry of its generation selects; INPLACE has copy 0. -/
def loadCopy (s : State) : Bool :=
  let l := s.ws.load
  l.dual && match s.ws.gens.toList.find? (fun g => g.st != 0 && g.wgen == l.wgen) with
    | some g => bit g.sel l.set.toNat
    | none => false

/-- The state of one copy of a set changed. -/
def WsSet.setCopy (x : WsSet) (one : Bool) (st : BitVec 2) : WsSet := if one then { x with copy1 := st } else { x with copy0 := st }

/-- A load fails on this package (R311): the reason, the set's LAST, the copies LOADING or VERIFIED, the ARMED entry. -/
def failLocal (s : State) (reason : Nat) : State :=
  let l := s.ws.load
  let drop (c : BitVec 2) : BitVec 2 := if c = 1 ∨ c = 2 then 0 else c
  let s := s.modSet l.set.toNat fun x => { x with last := BitVec.ofNat 8 reason, copy0 := drop x.copy0, copy1 := drop x.copy1 }
  let s := freeGen s l.wgen 1
  let s := s.modLoad fun l => { l with phase := 7, reason := BitVec.ofNat 8 reason, mrows := [], chunks := [], resends := [] }
  if s.hp.admitter then { s with hp := { s.hp with admCtrl := clrFld s.hp.admCtrl 1 1 } } else s

/-- The reader's load fails (R301, R311): ABORT to every member, and the load report. -/
def failLoad (s : State) (reason : Nat) : State :=
  let l := s.ws.load
  let s := if l.direct || l.phase == 1 then s
    else s.others.foldl (fun s m => s.send (wsCtrl s m 7 l.wgen l.set.toNat 0 reason)) s
  (failLocal s reason).loadReport (leBytes 2 l.wgen.toNat) true reason

/-! ### WS_LOAD (R300) -/

/-- Whether a WGEN may be loaded again: an INPLACE generation whose copy is not ACTIVE on every member (R300, R310). -/
def mayRepeat (s : State) (wgen : BitVec 16) (set : Nat) : Bool :=
  s.ws.gens.toList.any fun g => g.st != 0 && g.wgen == wgen && g.inplace
    && ((s.ws.load.wgen == wgen && s.ws.load.set.toNat == set && s.ws.load.phase == 7) || (s.keepsSet set && !copyReady s g set))

/-- Why a load is refused at once (R300), a code of R311. -/
def loadRefusal (s : State) (repeated : Bool) (wgen : BitVec 16) (set : Nat) : Option Nat :=
  if 16 ≤ set ∨ (vget s.ws.sets set).mode = 0 then some 0x0B
  else if s.ws.load.running || (!repeated && s.ws.gens.toList.all fun g => g.st != 0) then some 5
  else if wgen = 0 ∨ (!repeated && s.ws.gens.toList.any fun g => g.st != 0 && g.wgen == wgen) then some 0x0A
  else none

/-- The names of the codes that WS_LOAD is refused with. -/
def loadReason (code : Nat) : Reason :=
  match code with
  | 0x0B => .set
  | 5 => .busy
  | 0x0A => .generation
  | n => .code n

/-- The body of a WS_LOAD message (R300). -/
def WsLoadBody.ofBytes (b : List Byte) : WsLoadBody :=
  let f (i n : Nat) : Nat := recFld b i n
  { wgen := BitVec.ofNat 16 (f 0 2), set := BitVec.ofNat 8 (f 2 1), source := BitVec.ofNat 8 (f 3 1), qpn := BitVec.ofNat 32 (f 4 4)
    raddr := BitVec.ofNat 64 (f 8 8), rkey := BitVec.ofNat 32 (f 16 4), pinWaitMs := BitVec.ofNat 32 (f 20 4)
    length := BitVec.ofNat 64 (f 24 8) }

/-- This package begins to read a bundle. -/
def beginLoad (b : WsLoadBody) (s : State) : State := s.modLoad fun _ => {
  wgen := b.wgen, set := BitVec.ofNat 4 b.set.toNat, dual := (vget s.ws.sets b.set.toNat).mode == 2
  direct := b.source == 1, reader := true, readerSvc := s.svc, phase := 1, qpn := b.qpn, raddr := b.raddr, rkey := b.rkey
  length := b.length.toNat, pinWaitMs := b.pinWaitMs }

/-- WS_LOAD (R300): refused, or this package begins to read the bundle. -/
def wsLoad (k : Kdmp) (body : List Byte) (s : State) : State :=
  let b := WsLoadBody.ofBytes body
  liveRequest 0x32 k s fun s =>
    match loadRefusal s (mayRepeat s b.wgen b.set.toNat) b.wgen b.set.toNat with
    | some r => ((.refused (loadReason r), []), s)
    | none => ((.ok, []), beginLoad b s)

def execWsLoad (k : Kdmp) (b : List Byte) (s : State) : Res := .next (wsLoad k b s)

/-- The spare begins the DIRECT load of the next copy that it restores, once no load runs (R396, R301). No step of an older generation
runs at a spare, so its entry is free. -/
def nextOwnLoad (s : State) : State :=
  match s.ws.own with
  | [] => s
  | b :: rest =>
    if s.ws.load.running then s
    else
      let s : State := { s with ws := { s.ws with
        own := rest, gens := s.ws.gens.map fun g => if g.st = 3 then {} else g } }
      beginLoad b s

/-- WS_ABORT (R311): the reader's load ends with ABORTED. -/
def wsAbort (k : Kdmp) (wgen : BitVec 16) (s : State) : State :=
  liveRequest 0x33 k s fun s =>
    let l := s.ws.load
    if l.reader && l.running && l.wgen == wgen then ((.ok, []), failLoad s 9) else ((.refused .state, []), s)

def execWsAbort (k : Kdmp) (wgen : BitVec 16) (s : State) : Res := .next (wsAbort k wgen s)

/-! ### Generations (R304 to R306, R309) -/

/-- The entry of a new generation, ARMED: its selection is the LIVE one with the bit of the set changed. A DUAL load writes the
copy that the LIVE generation does not select, and copy 0 while there is none (log entry 38). -/
def armEntry (s : State) : State :=
  let l := s.ws.load
  let i := l.set.toNat
  let live := s.ws.gens.toList.find? fun g => g.st == 2
  let old : BitVec 16 := match live with
    | some g => g.sel
    | none => 0
  let one := l.dual && live.isSome && !bit old i
  let sel := if one then old ||| 1#16 <<< i else old &&& ~~~(1#16 <<< i)
  let e : WsGen := { st := 1, inplace := !l.dual, wgen := l.wgen, sel }
  if s.ws.gens.toList.any fun g => g.st != 0 && g.wgen == l.wgen then s
  else if (s.ws.gens[0]).st = 0 then { s with ws := { s.ws with gens := s.ws.gens.set 0 e } }
  else { s with ws := { s.ws with gens := s.ws.gens.set 1 e } }

/-- The generation is installed as ARMED (R301): a keeper's copy of a DUAL load is LOADING, and for an INPLACE load the
admitting package defers requests (R309). -/
def armLocal (s : State) (h m : List Byte) : State :=
  let s := armEntry s
  let l := s.ws.load
  let i := l.set.toNat
  let kept : List KeptChunk := (keptChunks s s.svc i).map fun c => { chunk := c }
  let s := s.modLoad fun l => { l with phase := 2, header := h, manifest := m, mrows := [], chunks := kept }
  let one := loadCopy s
  let s := if l.dual && s.keepsSet i then s.modSet i fun x => x.setCopy one 1 else s
  if !l.dual && s.hp.admitter then { s with hp := { s.hp with admCtrl := setFld s.hp.admCtrl 1 1 1 } } else s

/-- A PINNED generation's RETIRE at a member (R304): it is FREE once the steps that carry it are complete. The last step latched
tells whether one is still running (log entry 39). -/
def retireLocal (s : State) (wgen : BitVec 16) : State :=
  if s.ws.latches ≠ 0 ∧ s.ws.latchWgen = wgen then
    { s with ws := { s.ws with gens := s.ws.gens.map fun g => if g.st = 3 ∧ g.wgen = wgen then { g with retiring := true } else g } }
  else freeGen s wgen 3

/-- Whether a slot may still bring a step of a generation (R305, R306): a FOLLOW slot does only while its step runs. -/
def Slot.carries (x : Slot) (wgen : BitVec 16) : Bool := x.st != .free && x.wgen == wgen && (!x.follow || x.stepping)

/-- The first stage sends RETIRE to every member once no step will carry the PINNED generation (R305). -/
def retireCheck (s : State) : State :=
  match s.ws.gens.toList.find? (fun g => g.st == 3 && !g.retiring) with
  | some g =>
    if !s.hp.admitter || s.hp.slots.toList.any (fun x => x.carries g.wgen) then s
    else retireLocal (s.others.foldl (fun s m => s.send (wsCtrl s m 8 g.wgen 0 0 0)) s) g.wgen
  | none => s

/-- Whether a running sequence is pinned. -/
def pinned (s : State) : Bool := s.hp.slots.toList.any fun x => x.st != .free && !x.follow

/-- A sequence still pinned at the GO of an INPLACE load is ended with WEIGHTS_RETIRED (R309). -/
def endPinned (s : State) (slot : Nat) : State :=
  let x := s.slotOf slot
  cancelSlot (refuseRequest s x.sec x.record 0x0A) slot

/-- A copy that already is ACTIVE for the generation of a repeated INPLACE load is not written again (R310). -/
def skipCopy (s : State) : State :=
  let l := s.ws.load
  let s := s.modLoad fun l => { l with phase := if l.reader then 5 else 6, chunks := l.chunks.map fun c => { c with done := true } }
  if l.reader then s.modLoad fun l => { l with drained := s.svc :: l.drained, verified := s.svc :: l.verified }
  else
    let s := s.send (wsCtrl s l.readerSvc 4 l.wgen l.set.toNat 0 0)
    s.send (wsCtrl s l.readerSvc 5 l.wgen l.set.toNat 0 0)

/-- What GO does to an INPLACE load (R309): every slot moves to the generation, and a keeper whose steps have all completed
drains. -/
def goInplace (s : State) : State :=
  let l := s.ws.load
  let i := l.set.toNat
  let old := (List.range 512).filter fun n => (s.slotOf n).st != .free && !(s.slotOf n).follow && (s.slotOf n).wgen != l.wgen
  let s := if s.hp.admitter then old.foldl endPinned s else s
  let s : State := { s with hp := { s.hp with
    slots := s.hp.slots.map fun x => if x.st = .free then x else { x with wgen := l.wgen }
    admCtrl := if s.hp.admitter then clrFld s.hp.admCtrl 1 1 else s.hp.admCtrl } }
  let s := s.modLoad fun l => { l with went := true }
  if !s.keepsSet i then (if l.reader then s else s.modLoad fun l => { l with phase := 6 })
  else match s.genEntry l.wgen with
    | none => s
    | some g =>
      if copyReady s g i then skipCopy s
      else if s.ws.latches = 0 || s.ws.withheld.any (fun w => w.2 == l.wgen) then drainCopy s
      else s

/-- GO at a member (R304): the new entry is LIVE and the old one PINNED; a DUAL copy is ACTIVE. -/
def goLocal (s : State) : State :=
  let l := s.ws.load
  let one := loadCopy s
  let fresh := s.ws.gens.toList.any fun g => g.st == 1 && g.wgen == l.wgen
  let s := if !fresh then s else { s with ws := { s.ws with gens := s.ws.gens.map fun g =>
    if g.st = 1 ∧ g.wgen = l.wgen then { g with st := 2 } else if g.st = 2 then { g with st := 3 } else g } }
  let s := if l.dual then
      let s := s.modSet l.set.toNat fun x => if (if one then x.copy1 else x.copy0) = 2 then x.setCopy one 3 else x
      let s := s.modLoad fun l => { l with phase := 6, went := true }
      if l.reader then s else writeServiceRecord s
    else goInplace s
  retireCheck (releaseWithheld s)

/-- The reader sends GO to every member. -/
def sendGo (s : State) : State :=
  let l := s.ws.load
  let s := if l.direct then s else s.others.foldl (fun s m => s.send (wsCtrl s m 3 l.wgen l.set.toNat 0 0)) s
  goLocal s

/-- Whether every member has armed. -/
def allArmed (s : State) : Bool := (loadMembers s).all fun m => s.ws.load.armed.contains m

/-- An INPLACE load goes on once every member has armed and no running sequence is pinned (R309). -/
def pinCheck (s : State) : State :=
  let l := s.ws.load
  if l.reader && l.running && !l.dual && !l.went && allArmed s && !pinned s then sendGo s else s

/-- The reader completes the load once every keeper has verified and each chunk has been fetched (R301). -/
def loadCheck (s : State) : State :=
  let l := s.ws.load
  let fetched := l.direct || decide (manifestChunks l.manifest ≤ l.next)
  if !l.reader || l.phase == 7 || l.phase == 0 || !allArmed s || !fetched || (!l.dual && !l.went) || l.manifest.isEmpty
      || !(loadKeepers s).all fun m => l.verified.contains m then s
  else
    let s := if l.dual then sendGo s else s.modLoad fun l => { l with phase := 6 }
    let s := s.modLoad fun l => { l with reader := true, manifest := [] }
    nextOwnLoad ((writeServiceRecord s).loadReport (leBytes 2 l.wgen.toNat) false 0)

/-! ### Chunks at a member (R302) -/

/-- The tier address of a copy-0 address in the copy that a load writes: copy 1 lies where its column's window puts it (R294,
R302). -/
def copyAddr (s : State) (one : Bool) (set ta : Nat) : Nat :=
  if !one then ta
  else
    let tier := ta / 2 ^ 26 % 8
    let page := ta % 2 ^ 26 / 49152
    let hit (w : Word) : Bool := bit w 63 && bit w 62 && fld w 61 58 == set && fld w 57 55 == tier
      && decide (fld w 54 45 ≤ page ∧ page < fld w 54 45 + fld w 44 34)
    match ((List.range 4).map fun i => s.window (taColumn ta) i).find? hit with
    | some w => ta / 2 ^ 29 * 2 ^ 29 + fld w 33 31 * 2 ^ 26 + (fld w 30 21 + page - fld w 54 45) * 49152 + ta % 2 ^ 26 % 49152
    | none => ta

/-- A row of 256 bytes of a kept chunk goes to every place that names it, as requester 11 of the column's write side (R266, R302); bytes
beyond the chunk are not written. -/
def placeRow (s : State) (chunk row : Nat) (data : List Byte) : State :=
  let l := s.ws.load
  let one := loadCopy s
  let len := min 256 (wsChunkLen l.manifest chunk - 256 * row)
  let mine := (s.placementOf s.svc).filter fun e => e.set == l.set && e.chunk.toNat == chunk
    && decide (4 * e.off.toNat ≤ row ∧ row < 4 * (e.off.toNat + e.len1.toNat + 1))
  mine.foldl (fun s e =>
    let ta := copyAddr s one l.set.toNat (e.ta.toNat + 256 * row - 1024 * e.off.toNat)
    portJoin s (taColumn ta) .write
      { requester := 11, ta := BitVec.ofNat 37 ta, beats := 1, data := slice data 0 len } .chunk) s

/-- The reader learns of a mismatch: it sends the chunk to that member again, or ends the load at the third (R301). -/
def nackAt (s : State) (m : BitVec 16) (chunk : Nat) : State :=
  let s := s.modLoad fun l => { l with nacks := (m, chunk) :: l.nacks, resends := l.resends ++ [(m, chunk)] }
  if 3 ≤ (s.ws.load.nacks.filter (· == (m, chunk))).length then failLoad s 7 else s

/-- The last kept chunk of a member has matched (R301, R309): its copy is VERIFIED, and for an INPLACE load ACTIVE. -/
def copyVerified (s : State) : State :=
  let l := s.ws.load
  let one := loadCopy s
  let ident := slice l.manifest 8 16 ++ sha384 l.manifest
  let serial : Word := BitVec.ofNat 64 (recFld l.manifest 88 8)
  let src : BundleSrc := { rkey := l.rkey, raddr := l.raddr, length := BitVec.ofNat 64 l.length }
  let s := s.modSet l.set.toNat fun x =>
    let x := x.setCopy one (if l.dual then 2 else 3)
    if one then { x with wgen1 := l.wgen, id1 := ident, serial1 := serial, src1 := src }
    else { x with wgen0 := l.wgen, id0 := ident, serial0 := serial, src0 := src }
  let s := s.modLoad fun l => { l with phase := if l.dual || l.reader then 5 else 6 }
  let s := if l.dual then s else releaseWithheld (if l.reader then s else writeServiceRecord s)
  if l.reader then loadCheck (s.modLoad fun l => { l with verified := s.svc :: l.verified })
  else s.send (wsCtrl s l.readerSvc 5 l.wgen l.set.toNat 0 0)

/-- The digest of a chunk whose rows have all arrived is compared (R302). -/
def chunkCheck (s : State) (k : KeptChunk) : State :=
  let l := s.ws.load
  let len := wsChunkLen l.manifest k.chunk
  let rows := (len + 255) / 256
  let put (s : State) (k' : KeptChunk) : State :=
    s.modLoad fun l => { l with chunks := l.chunks.map fun x => if x.chunk = k.chunk then k' else x }
  if !(List.range rows).all (fun i => k.rows.any fun r => r.1 == i) then s
  else
    let data := ((List.range rows).map fun i => (k.rows.lookup i).getD []).flatten.take len
    if sha384 data = chunkDigest l.manifest k.chunk then
      let s := put s { k with rows := [], done := true }
      let s : State := { s with ws := { s.ws with stat := satAdd s.ws.stat 63 40 1 } }
      if s.ws.load.chunks.all (fun x => x.done) then copyVerified s else s
    else
      let s := put s { k with rows := [], fails := k.fails + 1 }
      let s : State := { s with ws := { s.ws with stat := satAdd s.ws.stat 39 32 1 } }
      if l.reader then nackAt s s.svc k.chunk else s.send (wsCtrl s l.readerSvc 6 l.wgen l.set.toNat k.chunk 0)

/-- Whether the member's copy takes chunks: LOADING, so after ARM for a DUAL load and after DRAINED for an INPLACE load (R293). -/
def copyLoading (s : State) : Bool :=
  let x := vget s.ws.sets s.ws.load.set.toNat
  (if loadCopy s then x.copy1 else x.copy0) == 1

/-- A row of a kept chunk arrives (R302). -/
def chunkRow (s : State) (chunk row : Nat) (data : List Byte) : State :=
  match s.ws.load.chunks.find? (fun k => k.chunk == chunk && !k.done) with
  | none => s
  | some k =>
    if !s.ws.load.running || !copyLoading s then s
    else
      let k' := { k with rows := (row, slice data 0 256) :: k.rows.filter fun r => r.1 != row }
      let s := placeRow s chunk row data
      let s := s.modLoad fun l => { l with phase := 4, chunks := l.chunks.map fun x => if x.chunk = chunk then k' else x }
      chunkCheck s k'

/-- A manifest row arrives at a member (R301, R330): the rows before ARM carry the header and then the manifest (log entry
42). -/
def manifestRow (s : State) (p : Pkt) (row : Nat) (wgen : BitVec 16) (set : BitVec 4) : State :=
  let l := s.ws.load
  if l.running && (l.reader || l.phase != 1) then s
  else
    let s := if l.phase = 1 ∧ l.wgen = wgen ∧ l.set = set ∧ !l.reader then s
      else s.modLoad fun _ => { wgen, set, dual := (vget s.ws.sets set.toNat).mode == 2, readerSvc := p.srcSvc, phase := 1 }
    s.modLoad fun l => { l with mrows := (row, p.body) :: l.mrows.filter fun r => r.1 != row }

/-- WS_CHUNK (R302): a row of a kept chunk, or of the manifest. -/
def wsChunk (p : Pkt) (s : State) : State :=
  if p.kind ≠ .wsChunk then s
  else arrive s p fun s =>
    let chunk := fld p.arg 63 44
    let row := fld p.arg 43 22
    let wgen := BitVec.ofNat 16 (fld p.arg 21 6)
    let set := BitVec.ofNat 4 (fld p.arg 5 2)
    if chunk = 0xFFFFF then manifestRow s p row wgen set
    else if s.ws.load.wgen = wgen ∧ s.ws.load.set = set then chunkRow s chunk row p.body
    else s

def execWsChunk (p : Pkt) (s : State) : Res := live s (.next (wsChunk p s))

/-! ### The reader (R301) -/

/-- A row of a chunk or of the manifest to a member. -/
def wsRow (s : State) (dst : BitVec 16) (chunk row : Nat) (data : List Byte) : Pkt :=
  let l := s.ws.load
  { kind := .wsChunk, vc := 5, dsad := true, ssad := true, dstUnit := 2, srcUnit := 2, fabric := true, dstSvc := dst, srcSvc := s.svc
    arg := fw 63 44 chunk ||| fw 43 22 row ||| fw 21 6 l.wgen.toNat ||| fw 5 2 l.set.toNat
    body := slice data (256 * row) 256 }

/-- Every row of some bytes to a member. -/
def sendRows (s : State) (dst : BitVec 16) (chunk : Nat) (data : List Byte) : State :=
  (List.range ((data.length + 255) / 256)).foldl (fun s i => s.send (wsRow s dst chunk i data)) s

/-- WS_MANIFEST_FETCHED (R301): the reader checks the manifest and sends it with ARM to every member. -/
def wsManifestFetched (r : Option FetchedManifest) (s : State) : State :=
  let l := s.ws.load
  if !l.reader || l.phase != 1 then s
  else match r with
    | none => failLoad s 6
    | some f =>
      if f.header.length < 512 ∨ l.length < 512 then failLoad s 6
      else match manifestReason s l.set.toNat f.header f.manifest (some l.length) with
        | some reason => failLoad s reason
        | none =>
          let s := if l.direct then s else s.others.foldl (fun s m =>
            (sendRows s m 0xFFFFF (f.header.take 512 ++ f.manifest)).send (wsCtrl s m 1 l.wgen l.set.toNat 0 0)) s
          let s := armLocal s (f.header.take 512) f.manifest
          loadCheck (pinCheck (s.modLoad fun l => { l with armed := [s.svc] }))

def execWsManifestFetched (r : Option FetchedManifest) (s : State) : Res := live s (.next (wsManifestFetched r s))

/-- A weight control message of a kind. -/
def isCtrl (p : Pkt) (msg : Nat) : Bool := p.kind == .wsCtrl && fld p.arg 63 56 == msg

/-- Whether a control message is of the load in progress. -/
def ofLoad (s : State) (p : Pkt) : Bool :=
  s.ws.load.running && s.ws.load.wgen.toNat == fld p.arg 55 40 && s.ws.load.set.toNat == fld p.arg 39 36

/-- The bytes that the manifest rows of a member spell: the header and the manifest. -/
def rowBytes (rows : List (Nat × List Byte)) : List Byte :=
  ((List.range rows.length).map fun i => slice ((rows.lookup i).getD []) 0 256).flatten

/-- ARM at a member (R301): it checks the manifest on its own engines, installs the generation as ARMED and replies ARMED, or
the reason. -/
def arm (p : Pkt) (s : State) : State :=
  if !isCtrl p 1 then s
  else arrive s p fun s =>
    let l := s.ws.load
    let wgen := BitVec.ofNat 16 (fld p.arg 55 40)
    let set := fld p.arg 39 36
    let reply (s : State) (reason : Nat) : State := s.send (wsCtrl s p.srcSvc 2 wgen set 0 reason)
    if l.running && (l.reader || l.phase != 1 || l.wgen != wgen || l.set.toNat != set) then reply s 5
    else
      let s := s.modLoad fun l => if l.phase = 1 then { l with phase := 0 }
        else { wgen, set := BitVec.ofNat 4 set, dual := (vget s.ws.sets set).mode == 2, readerSvc := p.srcSvc }
      let bytes := rowBytes s.ws.load.mrows
      let h := slice bytes 0 512
      let m := slice bytes 512 (recFld h 16 4)
      let repeated := s.ws.gens.toList.any fun g => g.st != 0 && g.wgen == wgen && g.inplace
      match loadRefusal s repeated wgen set with
      | some r => reply (failLocal s r) r
      | none => match manifestReason s set h m none with
        | some r => reply (failLocal s r) r
        | none => reply (armLocal s h m) 0

def execArm (p : Pkt) (s : State) : Res := live s (.next (arm p s))

/-- ARMED at the reader (R301, R309): a member's reason ends the load; once all have armed an INPLACE load waits for pins. -/
def armed (p : Pkt) (s : State) : State :=
  if !isCtrl p 2 then s
  else arrive s p fun s =>
    if !s.ws.load.reader || !ofLoad s p then s
    else if fld p.arg 15 8 ≠ 0 then failLoad s (fld p.arg 15 8)
    else loadCheck (pinCheck (s.modLoad fun l => { l with armed := p.srcSvc :: l.armed }))

def execArmed (p : Pkt) (s : State) : Res := live s (.next (armed p s))

/-- PIN_WAIT_EXPIRY (R309): the pin wait ends and GO is sent; pinned sequences end there. -/
def pinWaitExpiry (s : State) : State :=
  let l := s.ws.load
  if l.reader && l.running && !l.dual && !l.went && allArmed s then loadCheck (sendGo s) else s

def execPinWaitExpiry (s : State) : Res := live s (.next (pinWaitExpiry s))

/-- GO (R304). -/
def goMsg (p : Pkt) (s : State) : State :=
  if !isCtrl p 3 then s
  else arrive s p fun s => if s.ws.load.reader || !ofLoad s p then s else goLocal s

def execGoMsg (p : Pkt) (s : State) : Res := live s (.next (goMsg p s))

/-- DRAINED (R309): a keeper may be sent its chunks. -/
def drained (p : Pkt) (s : State) : State :=
  if !isCtrl p 4 then s
  else arrive s p fun s =>
    if !s.ws.load.reader || !ofLoad s p then s else s.modLoad fun l => { l with drained := p.srcSvc :: l.drained }

def execDrained (p : Pkt) (s : State) : Res := live s (.next (drained p s))

/-- The chunk that a reader fetches next: each in turn, for DIRECT each that this package keeps (R301). -/
def nextChunk (s : State) : Option Nat :=
  let l := s.ws.load
  let n := manifestChunks l.manifest
  if l.direct then
    ((keptChunks s s.svc l.set.toNat).filter fun c => decide (l.next ≤ c ∧ c < n)).min?
  else if l.next < n then some l.next else none

/-- A fetched chunk goes to members: rows over the fabric, or to this package's own copy. -/
def deliverChunk (s : State) (ms : List (BitVec 16)) (chunk : Nat) (data : List Byte) : State :=
  ms.foldl (fun s m =>
    if m = s.svc then (List.range ((data.length + 255) / 256)).foldl (fun s i => chunkRow s chunk i (slice data (256 * i) 256)) s
    else sendRows s m chunk data) s

/-- WS_CHUNK_FETCHED (R301, R309): the READ of the next chunk, or of one that a member asked for again, ends. An INPLACE chunk is
read once all of its keepers have drained. -/
def wsChunkFetched (chunk : BitVec 20) (r : Option (List Byte)) (s : State) : State :=
  let l := s.ws.load
  let c := chunk.toNat
  let again := (l.resends.filter fun x => x.2 == c).map (·.1)
  let keepers := (loadMembers s).filter fun m => keeps s m l.set.toNat c
  let ready := l.dual || (l.went && keepers.all fun m => l.drained.contains m)
  if !l.reader || !l.running || l.manifest.isEmpty || !allArmed s || !ready then s
  else if again.isEmpty && nextChunk s != some c then s
  else match r with
    | none => failLoad s 6
    | some data =>
      let data := slice data 0 (wsChunkLen l.manifest c)
      if again.isEmpty then
        let s := s.modLoad fun l => { l with next := c + 1, phase := if l.phase = 2 ∧ l.dual then 4 else l.phase }
        loadCheck (deliverChunk s keepers c data)
      else
        let s := s.modLoad fun l => { l with resends := l.resends.filter fun x => x.2 != c }
        loadCheck (deliverChunk s again c data)

def execWsChunkFetched (chunk : BitVec 20) (r : Option (List Byte)) (s : State) : Res := live s (.next (wsChunkFetched chunk r s))

/-- CHUNK_NACK (R301). -/
def chunkNack (p : Pkt) (s : State) : State :=
  if !isCtrl p 6 then s
  else arrive s p fun s => if !s.ws.load.reader || !ofLoad s p then s else nackAt s p.srcSvc (fld p.arg 35 16)

def execChunkNack (p : Pkt) (s : State) : Res := live s (.next (chunkNack p s))

/-- VERIFIED (R301): once all are in, a DUAL load sends GO, and the load completes. -/
def verified (p : Pkt) (s : State) : State :=
  if !isCtrl p 5 then s
  else arrive s p fun s =>
    if !s.ws.load.reader || !ofLoad s p then s else loadCheck (s.modLoad fun l => { l with verified := p.srcSvc :: l.verified })

def execVerified (p : Pkt) (s : State) : Res := live s (.next (verified p s))

/-- ABORT (R311). -/
def abortLoad (p : Pkt) (s : State) : State :=
  if !isCtrl p 7 then s
  else arrive s p fun s =>
    if s.ws.load.reader || s.ws.load.phase == 0 || s.ws.load.phase == 7 || s.ws.load.wgen.toNat != fld p.arg 55 40 then s
    else failLocal s (fld p.arg 15 8)

def execAbortLoad (p : Pkt) (s : State) : Res := live s (.next (abortLoad p s))

/-- RETIRE (R304). -/
def retire (p : Pkt) (s : State) : State :=
  if !isCtrl p 8 then s else arrive s p fun s => retireLocal s (BitVec.ofNat 16 (fld p.arg 55 40))

def execRetire (p : Pkt) (s : State) : Res := live s (.next (retire p s))

/-! ### Registers (R312) -/

def wsLoadWord (l : WsLoad) : Word :=
  fw 63 48 l.wgen.toNat ||| fw 47 44 l.set.toNat ||| fw 43 43 (if l.dual then 1 else 0) ||| fw 42 42 (if l.direct then 1 else 0)
    ||| fw 41 41 (if l.reader then 1 else 0) ||| fw 40 38 l.phase.toNat ||| fw 37 30 l.reason.toNat
    ||| fw 19 0 (l.chunks.filter fun k => !k.done).length

def wsGenWord (g : WsGen) : Word :=
  fw 63 62 g.st.toNat ||| fw 61 61 (if g.inplace then 1 else 0) ||| fw 47 32 g.wgen.toNat ||| fw 31 16 g.sel.toNat

def wsLatchWord (w : Ws) : Word :=
  fw 63 48 w.latchWgen.toNat ||| fw 47 32 w.latchSel.toNat ||| fw 31 24 w.latchTg.toNat ||| fw 23 0 w.latches.toNat

def wsSetWord (x : WsSet) : Word :=
  fw 63 62 x.mode.toNat ||| fw 61 60 x.copy0.toNat ||| fw 59 58 x.copy1.toNat ||| fw 57 50 x.last.toNat
    ||| fw 47 32 x.wgen0.toNat ||| fw 31 16 x.wgen1.toNat

end Sys2Proof.Machine
end

