-- ==== Sys2Proof/Machine/HostPort.lean ====
section
/-! DEFINITION. The host port: frames, the link, requests and admission, response records, queue pairs, notices, the emit ring,
micro-batches, saddle endpoints (R214, R350 to R371, R391). -/

namespace Sys2Proof.Machine

/-! ### The Ethernet port (R350, R351, R369, R370) -/

def State.countDropped (s : State) : State := { s with hp := { s.hp with linkStat := satAdd s.hp.linkStat 15 0 1 } }

/-- Bytes of the KDMP store (R369). -/
def kdmpStore : Nat := 262144

/-- ETH_FRAME_RECEIVE (R351): the first matching row of the table decides. A frame of a size that the MAC does not support is
discarded (R350). -/
def ethFrameReceive (f : Frame) (s : State) : State :=
  let vlanBad := match f.vid with
    | some v => v.toNat != fld s.hp.net 11 0
    | none => false
  if !s.hp.linkUp then s
  else if f.badFcs || !f.addrOk || f.fragment || vlanBad || decide (f.len < 64 ∨ 9216 < f.len) then s.countDropped
  else if f.kind = 0 then
    if bit s.hp.net 12 then
      { s with hp := { s.hp with portStatus := setFld s.hp.portStatus 2 2 (if f.udpPort = 0 then 0 else 1) } }
    else s
  else if f.kind = 1 ∧ f.udpPort = 4791 then s
  else if f.kind = 1 ∧ f.udpPort = 36120 then
    if kdmpStore < s.hp.kdmp.foldl (· + ·) 0 + f.len then s.countDropped
    else { s with hp := { s.hp with kdmp := s.hp.kdmp ++ [f.len] } }
  else if f.kind = 1 ∧ (f.udpPort = 319 ∨ f.udpPort = 320) then (if bit s.fi.timeCfg 47 then s else s.countDropped)
  else if f.kind = 2 then s
  else s.countDropped

def execEthFrameReceive (f : Frame) (s : State) : Res := live s (.next (ethFrameReceive f s))

/-- HOST_LINK_UP (R351, R404): the link is up on all lanes; boot goes from the host-link phase to the firmware phase. -/
def hostLinkUp (s : State) : State :=
  { s with
    hp := { s.hp with portStatus := s.hp.portStatus ||| 0xFF03 }
    ms := { s.ms with phase := if s.ms.phase = 5 then 6 else s.ms.phase } }

def execHostLinkUp (s : State) : Res := live s (.next (hostLinkUp s))

/-- HOST_LINK_DOWN (R351): nothing that the package holds is lost. -/
def hostLinkDown (s : State) : State := { s with hp := { s.hp with portStatus := s.hp.portStatus &&& ~~~0xFF07 } }

def execHostLinkDown (s : State) : Res := live s (.next (hostLinkDown s))

/-- HOST_PTP_FRAME (R370): the stamp of a Sync on ingress, or of a Delay_Req on egress. -/
def hostPtpFrame (f : PtpKind) (s : State) : State :=
  let stamp : Word := fw 63 32 s.ck.ns.toNat ||| fw 31 0 s.ck.frac.toNat
  if !bit s.fi.timeCfg 47 then s
  else match f with
    | .sync => { s with hp := { s.hp with ptpRx := stamp } }
    | .delayReq => { s with hp := { s.hp with ptpTx := stamp } }

def execHostPtpFrame (f : PtpKind) (s : State) : Res := live s (.next (hostPtpFrame f s))

/-! ### Queue pairs (R352, R368) -/

def State.modQp (s : State) (i : Nat) (f : Qp → Qp) : State := { s with hp := { s.hp with qps := vmod s.hp.qps i f } }

/-- QP_ACK_TIMEOUT (R352): a retry, or after seven of them the queue pair is in ERROR. -/
def qpAckTimeout (qp : BitVec 10) (s : State) : State :=
  let q := vget s.hp.qps qp.toNat
  if q.error then s
  else if q.retries < 7 then s.modQp qp.toNat fun q => { q with retries := q.retries + 1 }
  else (s.modQp qp.toNat fun q => { q with error := true }).hpFault 0x0905

def execQpAckTimeout (qp : BitVec 10) (s : State) : Res := live s (.next (qpAckTimeout qp s))

/-- CONGESTION_NOTIFICATION (R352). -/
def congestionNotification (qp : BitVec 10) (s : State) : State := s.modQp qp.toNat fun q => { q with rate := q.rate / 2 }

def execCongestionNotification (qp : BitVec 10) (s : State) : Res := live s (.next (congestionNotification qp s))

/-- RATE_RESTORE (R352): a step of 1/16 of the full rate. -/
def rateRestore (qp : BitVec 10) (s : State) : State :=
  s.modQp qp.toNat fun q => { q with rate := min 0x100000 (q.rate + 0x10000) }

def execRateRestore (qp : BitVec 10) (s : State) : Res := live s (.next (rateRestore qp s))

/-- QP_RESET (R368): the queue pair returns to its initial state, and held records go on. -/
def qpReset (k : Kdmp) (qpn : BitVec 24) (s : State) : State :=
  liveRequest 0x34 k s fun s => ((.ok, []), s.modQp (qpn.toNat % 1024) fun _ => {})

def execQpReset (k : Kdmp) (qpn : BitVec 24) (s : State) : Res := .next (qpReset k qpn s)

/-- Whether a section can be reached: in use, the link up, its queue pair not in ERROR. -/
def reachable (s : State) (sec : Nat) : Bool :=
  (s.sec sec).en && s.hp.linkUp && !(vget s.hp.qps (s.sec sec).qp).error

/-! ### Request records (R353, R354) -/

/-- The number modulo 2^16 that RSEQ of a record at an index must have: that of the record from NEXT on. -/
def expectedSeq (x : Section) (idx : Nat) : Nat := (x.next + (idx + x.size - x.next % x.size) % x.size) % 2 ^ 16

/-- Whether a record at an index has arrived, carries its number and has not been examined. -/
def unexamined (x : Section) (ring : Mem) (idx : Nat) : Bool :=
  x.arrived.contains idx && recFld (x.record ring idx) 0 2 == expectedSeq x idx

/-- REQUEST_RECORD_ARRIVAL (R353): a WRITE of one record, or in MODE 1 a SEND, is placed or discarded. -/
def requestRecordArrival (sec : BitVec 4) (send : Bool) (idx : Nat) (r : List Byte) (s : State) : State :=
  let i := sec.toNat
  let x := s.sec i
  let idx := if send then (x.next + x.arrived.length) % x.size else idx
  let deferred := x.deferred.any fun n => n % x.size == idx
  if !reachable s i then s
  else if bit x.cfg 62 != send || r.length != 256 || decide (x.size ≤ idx) || deferred || unexamined x s.hp.ring idx then
    s.reqStat 11 0
  else
    let s : State := { s with hp := { s.hp with ring := Mem.write s.hp.ring (256 * (x.base + idx)) r } }
    s.modSec i fun x => { x with arrived := x.arrived.filter (· != idx) ++ [idx] }

def execRequestRecordArrival (sec : BitVec 4) (send : Bool) (idx : Nat) (r : List Byte) (s : State) : Res :=
  live s (.next (requestRecordArrival sec send idx r s))

/-- HP_RCRED_WRITE (R361): the host writes its read index. -/
def hpRcredWrite (sec : BitVec 4) (v : Word) (s : State) : State := s.modSec sec.toNat fun x => { x with rcred := v }

def execHpRcredWrite (sec : BitVec 4) (v : Word) (s : State) : Res := live s (.next (hpRcredWrite sec v s))

/-! ### Admission (R355 to R358, R367) -/

/-- OP and CLASS of a request record. -/
def reqOp (r : List Byte) : Nat := recFld r 2 1
def reqClass (r : List Byte) : Nat := recFld r 3 1 % 4
def reqId (r : List Byte) : Nat := recFld r 8 8

/-- Why a NEW record is refused at once (R355); FORMAT applies to a CANCEL as well. -/
def requestReason (s : State) (r : List Byte) : Option Nat :=
  let len := recFld r 24 4
  let new := recFld r 4 4
  let reserved := recFld r 3 1 / 8 != 0 || recFld r 48 4 != 0 || recFld r 54 2 != 0
  if reserved || decide (reqOp r ≠ 1 ∧ reqOp r ≠ 2) then some 1
  else if reqOp r = 2 then none
  else if new = 0 ∨ len = 0 ∨ (recFld r 32 8 = 0 ∧ 32 < len) then some 1
  else if fld (vget s.hp.cls (reqClass r)) 53 44 = 0 then some 2
  else if fld s.hp.admCfg 35 16 < len + new ∨ s.hp.totalBlocks.toNat < chargeOf s.hp r then some 3
  else if !bit s.hp.admCtrl 0 || s.prog.isNone then some 6
  else none

/-- Deferred heads are admitted while they may take a slot (R357). `n` bounds them. -/
def admitHeads : Nat → Nat → State → State
  | 0, _, s => s
  | n + 1, c, s =>
    match vget s.hp.queues c with
    | [] => s
    | d :: _ =>
      if s.hp.deferAll || !recordRoom s d.sec false then s
      else match mayTake s c (chargeOf s.hp d.record) with
        | none => s
        | some slot => admitHeads n c (admitTo (dropDeferred s c d) d.sec slot d.record)

/-- A CANCEL record (R367): it names a deferred or an open request of its section. -/
def cancelRequest (s : State) (sec : Nat) (r : List Byte) : State :=
  let mine (d : Deferred) : Bool := d.sec == sec && reqId d.record == reqId r
  let hit := (List.range 4).findSome? fun c => ((vget s.hp.queues c).find? mine).map fun d => (c, d)
  let ok (s : State) : State := statusRecord s sec 1 0 0 (slice r 8 8) 0
  match hit with
  | some (c, d) => ok (refuseRequest (dropDeferred s c d) d.sec d.record 8)
  | none =>
    match (List.range 512).find? (fun i => (s.slotOf i).st != .free && (s.slotOf i).sec == sec && reqId (s.slotOf i).record == reqId r) with
    | some i => ok (cancelSlot s i)
    | none => refuseRequest s sec r 9

/-- One record is examined (R357). After a takeover, one that the journal shows as answered is passed over, and one that it shows
as DEFERRED is queued again without a second record (R399). -/
def examine (s : State) (sec : Nat) : State :=
  let x := s.sec sec
  let num := x.next
  let r := x.record s.hp.ring (num % x.size)
  let s := s.modSec sec fun x => { x with next := num + 1, arrived := x.arrived.filter (· != num % x.size) }
  let c := reqClass r
  let q := vget s.hp.queues c
  match (if reqOp r = 1 then x.known.lookup (reqId r) else none) with
  | some 2 =>
    let s : State := { s with hp := { s.hp with queues := vmod s.hp.queues c fun q => q ++ [{ sec, num, record := r }] } }
    s.modSec sec fun x => { x with deferred := x.deferred ++ [num] }
  | some _ => s
  | none =>
  match requestReason s r with
  | some reason => refuseRequest s sec r reason
  | none =>
    if reqOp r = 2 then cancelRequest s sec r
    else match (if q.isEmpty && !s.hp.deferAll then mayTake s c (chargeOf s.hp r) else none) with
      | some slot => admitTo s sec slot r
      | none =>
        if fld (vget s.hp.cls c) 43 28 ≤ q.length then refuseRequest s sec r 4
        else if x.size - 64 ≤ x.deferred.length then refuseRequest s sec r 5
        else
          let s : State := { s with hp := { s.hp with queues := vmod s.hp.queues c fun q => q ++ [{ sec, num, record := r }] } }
          let s := s.modSec sec fun x => { x with deferred := x.deferred ++ [num] }
          (statusRecord s sec 2 0 q.length (slice r 8 8) 0).reqStat 43 28

/-- Whether the record NEXT of a section is present, and its status record has room (R353, R361). -/
def recordPresent (s : State) (sec : Nat) : Bool :=
  let x := s.sec sec
  x.en && unexamined x s.hp.ring (x.next % x.size) && recordRoom s sec false

/-- ADMISSION_CYCLE (R357): deferred heads, then at most one present record, the sections in rotation. -/
def admissionCycle (s : State) : State :=
  if !s.hp.admitter then s
  else
    let s := (List.range 4).foldl (fun s c => admitHeads (vget s.hp.queues c).length c s) s
    match ((List.range 16).map fun i => (s.hp.rotate + i) % 16).find? (recordPresent s) with
    | none => s
    | some sec => examine { s with hp := { s.hp with rotate := (sec + 1) % 16 } } sec

def execAdmissionCycle (s : State) : Res := live s (.next (admissionCycle s))

/-! ### Response records (R361, R368, R391) -/

/-- Where a response record goes. -/
def responseAddr (x : Section) (emitter : Bool) (v : Nat) : Word :=
  x.raddr + BitVec.ofNat 64 ((if emitter then 64 * x.rsize else 0) + 64 * (v % x.rsize))

/-- Whether a record may be written: its journal entry is committed, the host has freed its place, and the host is reached. -/
def mayWrite (s : State) (sec : Nat) (r : RespRec) : Bool :=
  reachable s sec && decide (r.vseq < (s.sec sec).rcred.toNat + (s.sec sec).rsize) && decide (r.journal ≤ s.cu.committed)

/-- RESPONSE_RECORD_WRITE (R361): the oldest formed record of a section and role is written. -/
def responseRecordWrite (sec : BitVec 4) (role : Role) (s : State) : State :=
  let i := sec.toNat
  let em := role == .emitter
  match (s.sec i).waiting em with
  | [] => s
  | r :: rest =>
    if !mayWrite s i r then s
    else
      let addr := responseAddr (s.sec i) em r.vseq
      let s := s.modSec i fun x => if em then { x with tokenRecs := rest, ackE := r.vseq + 1 } else { x with statusRecs := rest, ackA := r.vseq + 1 }
      let s := s.modQp (s.sec i).qp fun q => { q with retries := 0 }
      let st := satAdd s.hp.emitStat 63 32 (recFld r.data 20 1)
      let st := setFld st 15 0 (fld st 15 0 + 1)
      ({ s with hp := { s.hp with emitStat := st } } : State).emit (.rdma i addr r.data)

def execResponseRecordWrite (sec : BitVec 4) (role : Role) (s : State) : Res := live s (.next (responseRecordWrite sec role s))

/-! ### Slots: prompts and notices (R362 to R364) -/

/-- PROMPT_READ_COMPLETE (R359, R364): the prompt is delivered, or the request refused and its slot freed. -/
def promptReadComplete (slot : BitVec 9) (r : Option (List (BitVec 32))) (s : State) : State :=
  let i := slot.toNat
  let x := s.slotOf i
  if x.st ≠ .opening ∨ x.prompt ∨ !s.hp.admitter then s
  else match r with
    | some toks => openIfReady (deliverPrompt s i (toks.take (recFld x.record 24 4))) i
    | none => freeSlot (refuseRequest s x.sec x.record 7) i (noticeEps s false)

def execPromptReadComplete (slot : BitVec 9) (r : Option (List (BitVec 32))) (s : State) : Res :=
  live s (.next (promptReadComplete slot r s))

/-- The first bytes of the message at the head of a saddle receive endpoint. -/
def headPayload (s : State) (e n : Nat) : Option (List Byte) :=
  let r := s.recvEp .port e
  if r.st = .opened ∧ r.rptr ≠ r.wptr ∧ hdrKind (s.headAt .port e r.rptr) = 0 then
    some (s.ringRead .port (r.base + r.rptr + 32) n)
  else none

/-- The saddle receive endpoint whose head is a notice. -/
def noticeAt (s : State) (bytes : List Byte) : Option Nat :=
  (List.range 256).find? fun e => headPayload s e bytes.length == some bytes

/-- The open send endpoints that reach the package of a receive endpoint. -/
def answersTo (s : State) (e : Nat) : List Nat :=
  (noticeEps s false).filter fun k => (s.sendEp .port k).peer.svc == (s.recvEp .port e).peer.svc

/-- A member that has every READY it awaits answers the asker (R363). -/
def answerReady (s : State) (slot : Nat) : State :=
  let x := s.slotOf slot
  match x.asker with
  | some e => if x.awaiting.isEmpty then sendNotices (s.modSlot slot fun x => { x with asker := none }) ((answersTo s e).take 1) (noticeHead 4 slot) else s
  | none => s

/-- NOTICE_OPEN (R362, R363): firmware writes the slot's entries and generation, the host port writes the OPEN record, and the
notice goes on to the members below. -/
def noticeOpen (n : OpenNotice) (s : State) : State :=
  let i := n.slot.toNat
  let bytes := openNotice i n.wgen n.blocks n.slotGen n.sec.toNat n.request
  match noticeAt s bytes with
  | none => s
  | some e =>
    let s := freeHead s .port e
    let s := n.entries.foldl (fun s x => writeEntry s i x) s
    let follow := bit (n.request.getD 3 0) 2
    let eps := noticeEps s true
    let s : State := { s with
      tm := { s.tm with slotGen := vset s.tm.slotGen i n.slotGen }
      hp := { s.hp with slots := vset s.hp.slots i {
        st := .opened, cls := reqClass n.request, follow, wgen := n.wgen, sec := n.sec.toNat, record := slice n.request 0 256
        awaiting := eps, asker := some e, prompt := true } } }
    let s := waymarkRequest s i n.request
    let s := admissionRecord s 1 (openRecord i n.wgen n.blocks follow n.request)
    answerReady (sendNotices s eps bytes) i

def execNoticeOpen (n : OpenNotice) (s : State) : Res := live s (.next (noticeOpen n s))

/-- NOTICE_CANCEL (R362, R363, R367): it goes on to the members below, and a CANCEL record to the admission ring. -/
def noticeCancel (slot : BitVec 9) (s : State) : State :=
  match noticeAt s (noticeHead 2 slot.toNat) with
  | none => s
  | some e =>
    let s := sendNotices (freeHead s .port e) (noticeEps s true) (noticeHead 2 slot.toNat)
    admissionRecord s 4 (leBytes 2 slot.toNat ++ List.replicate 30 0)

def execNoticeCancel (slot : BitVec 9) (s : State) : Res := live s (.next (noticeCancel slot s))

/-- NOTICE_END (R362, R363): firmware clears the slot's entries, and the notice goes on. -/
def noticeEnd (slot : BitVec 9) (s : State) : State :=
  match noticeAt s (noticeHead 3 slot.toNat) with
  | none => s
  | some e =>
    let s := freeHead s .port e
    let s := clearPages (sendNotices s (noticeEps s true) (noticeHead 3 slot.toNat)) slot.toNat
    pinCheck (s.modSlot slot.toNat fun _ => {})

def execNoticeEnd (slot : BitVec 9) (s : State) : Res := live s (.next (noticeEnd slot s))

/-- NOTICE_READY (R362, R363): the answer of a member at a saddle receive endpoint. -/
def noticeReady (slot : BitVec 9) (ep : BitVec 8) (s : State) : State :=
  let i := slot.toNat
  if headPayload s ep.toNat 8 ≠ some (noticeHead 4 i) then s
  else
    let svc := (s.recvEp .port ep.toNat).peer.svc
    let s := freeHead s .port ep.toNat
    let s := s.modSlot i fun x => { x with awaiting := x.awaiting.filter fun e => (s.sendEp .port e).peer.svc != svc }
    if s.hp.admitter then openIfReady s i else answerReady s i

def execNoticeReady (slot : BitVec 9) (ep : BitVec 8) (s : State) : Res := live s (.next (noticeReady slot ep s))

/-- NOTICE_TIMEOUT (R362): a member has not answered within 1 ms; the slot stays OPENING. -/
def noticeTimeout (slot : BitVec 9) (s : State) : State :=
  if (s.slotOf slot.toNat).awaiting.isEmpty then s else s.hpFault 0x0904

def execNoticeTimeout (slot : BitVec 9) (s : State) : Res := live s (.next (noticeTimeout slot s))

/-! ### The emit ring (R364, R366, R391) -/

/-- Core and endpoint of the emit ring. -/
def emitHome (s : State) : Home := .core (BitVec.ofNat 8 (fld s.hp.ringCfg 49 42))
def emitEp (s : State) : Nat := fld s.hp.ringCfg 41 37

/-- The payload of the record at the head of the emit ring, with its SEQ. A CLOSE record there is freed first (R227). -/
def emitHead (s : State) : Option (List Byte × Nat) :=
  let r := s.recvEp (emitHome s) (emitEp s)
  if bit s.hp.ringCfg 36 && r.st == .opened && r.rptr != r.wptr then
    let hd := s.headAt (emitHome s) (emitEp s) r.rptr
    if hdrKind hd = 0 then some (s.ringRead (emitHome s) (r.base + r.rptr + 32) 32, hdrSeq hd) else none
  else none

/-- Whether a payload holds the fields of a record of a kind. -/
def emitMatches (b : List Byte) (r : EmitRec) : Bool :=
  recFld b 1 1 == r.reason.toNat && recFld b 2 2 == r.slot.toNat && recFld b 4 4 == r.pos.toNat && recFld b 8 4 == r.token.toNat
    && recFld b 12 1 == r.flags.toNat && (slice b 13 19).all (· == 0) == r.reservedZero

/-- Whether a record is refused (R364): unknown KIND, a slot that is not open, a nonzero reserved byte. TOKEN is a record of the
emitter and END of the admitter. -/
def emitBad (s : State) (kind : Nat) (r : EmitRec) : Bool :=
  let x := s.slotOf r.slot.toNat
  let role := kind == 2 || (kind == 1 && s.hp.emitter) || (kind == 3 && s.hp.admitter)
  !role || decide (512 ≤ r.slot.toNat) || !(x.st == .opened || x.st == .closing) || !r.reservedZero || r.flags.toNat / 2 != 0

/-- The record at the head of the emit ring is answered and freed (R364). -/
def emitAnswer (s : State) (seq status : Nat) : State :=
  let h := emitHome s
  let e := emitEp s
  freeHead (deliveryResponse s h e status 0 seq false) h e

/-- A record of the emit ring is read through the code check of its row and given to its meaning, or refused. -/
def emitTake (kind : Nat) (r : EmitRec) (s : State) (k : State → State) : State :=
  let ep := s.recvEp (emitHome s) (emitEp s)
  match emitHead s with
  | none => if bit s.hp.ringCfg 36 && ep.st == .opened && ep.rptr != ep.wptr then freeHead s (emitHome s) (emitEp s) else s
  | some (b, seq) =>
    let got := recFld b 0 1
    if ep.peer.unit != r.core || !emitMatches b r || !(got == kind || (kind == 1 && !(got == 2 || got == 3))) then s
    else ringChecked s (emitHome s) (ep.base + ep.rptr) 256 fun s =>
      if emitBad s got r then emitAnswer s seq 4 else k (emitAnswer s seq 0)

/-- A FINAL record has been formed: the emitter clears the slot; on an admitter it is CLOSING until END (R366). -/
def finishSlot (s : State) (slot : Nat) : State :=
  if s.hp.admitter then s.modSlot slot fun x => { x with st := .closing } else s.modSlot slot fun _ => {}

/-- A token that is not a duplicate (R366). -/
def holdToken (s : State) (r : EmitRec) : State :=
  let i := r.slot.toNat
  let coalesce := fld s.hp.ringCfg 31 0
  let x := s.slotOf i
  let closed := !x.tokens.isEmpty && decide (x.tokenNs.toNat + coalesce ≤ s.now.toNat)
  let s := if closed then formTokens s i none else s
  let s := s.modSlot i fun x => { x with
    lastPos := r.pos, tokens := x.tokens ++ [r.token]
    tokenPos := if x.tokens.isEmpty then r.pos else x.tokenPos, tokenNs := if x.tokens.isEmpty then s.now else x.tokenNs }
  if bit r.flags 0 then finishSlot (formTokens s i (some r.reason.toNat)) i
  else if coalesce = 0 ∨ 6 ≤ (s.slotOf i).tokens.length then formTokens s i none
  else s

/-- EMIT_TOKEN (R364, R366). While the records of the slot's section cannot be written, tokens wait in the emit ring (R361). -/
def emitToken (r : EmitRec) (s : State) : State :=
  let sec := (s.slotOf r.slot.toNat).sec
  if !recordRoom s sec true then s
  else if (match (s.sec sec).tokenRecs with
      | x :: _ => !mayWrite s sec x
      | [] => false) then s
  else emitTake 1 r s fun s =>
    let x := s.slotOf r.slot.toNat
    if r.pos.toNat ≤ x.lastPos.toNat then { s with hp := { s.hp with emitStat := satAdd s.hp.emitStat 31 16 1 } }
    else holdToken s r

def execEmitToken (r : EmitRec) (s : State) : Res := live s (.next (emitToken r s))

/-- EMIT_READY (R364, R365, R391): the slot is ready for its next step, once the mirror rows taken before are committed. -/
def emitReady (r : EmitRec) (s : State) : State :=
  let mark := s.hp.readyMark.getD s.cu.tapped
  if s.mirrorOn && decide (s.cu.committed < mark) then { s with hp := { s.hp with readyMark := some mark } }
  else
    let s := { s with hp := { s.hp with readyMark := none } }
    emitTake 2 r s fun s =>
      retireCheck (s.modSlot r.slot.toNat fun x => { x with readyNs := some s.now, readyPos := r.pos, stepping := false })

def execEmitReady (r : EmitRec) (s : State) : Res := live s (.next (emitReady r s))

/-- EMIT_END (R366): the admitter frees the slot and its blocks and sends END notices. -/
def emitEnd (r : EmitRec) (s : State) : State :=
  emitTake 3 r s fun s => pinCheck (retireCheck (freeSlot s r.slot.toNat (noticeEps s false)))

def execEmitEnd (r : EmitRec) (s : State) : Res := live s (.next (emitEnd r s))

/-- TOKEN_WINDOW_CLOSE (R366): the tokens held for a slot go into one record. -/
def tokenWindowClose (slot : BitVec 9) (s : State) : State :=
  if (s.slotOf slot.toNat).tokens.isEmpty then s else formTokens s slot.toNat none

def execTokenWindowClose (slot : BitVec 9) (s : State) : Res := live s (.next (tokenWindowClose slot s))

/-! ### Micro-batches (R214, R305, R306, R365) -/

/-- FOLLOW slots of a PINNED generation move to the LIVE one at a step start (R306). -/
def followLive (s : State) : State :=
  let pinnedGen (g : BitVec 16) : Bool := s.ws.gens.toList.any fun e => e.st == 3 && e.wgen == g
  { s with hp := { s.hp with slots := s.hp.slots.map fun x =>
    if x.st ≠ .free ∧ x.follow ∧ !x.stepping ∧ pinnedGen x.wgen then { x with wgen := s.liveWgen } else x } }

/-- The ready rows: open slots with a READY or OPEN behind them and no step in flight, with the time. -/
def readyRows (h : Hp) : List (Nat × Nat) :=
  (List.range 512).filterMap fun i =>
    let x := vget h.slots i
    match x.readyNs with
    | some t => if x.st = .opened ∧ !x.stepping then some (i, t.toNat) else none
    | none => none

/-- The smallest of some numbers, 0 for none. -/
def least (l : List Nat) : Nat := (l.min?).getD 0

/-- The generation of the next micro-batch: that of the oldest ready row; when rows of both wait, they alternate (R305). -/
def batchGen (h : Hp) (rows : List (Nat × Nat)) : BitVec 16 :=
  let t0 := least (rows.map (·.2))
  let gens := (rows.map fun r => (vget h.slots r.1).wgen).eraseDups
  let oldest := match rows.find? (fun r => r.2 == t0) with
    | some r => (vget h.slots r.1).wgen
    | none => 0
  if 1 < gens.length ∧ oldest = h.lastGen then (gens.find? (· != h.lastGen)).getD oldest else oldest

/-- The rows that a micro-batch may start with, when it may start (R214, R365): the fill target is reached, or the hold window
is closed. -/
def batchRows (s : State) (rows : List (Nat × Nat)) : Option (List (Nat × Nat)) :=
  let cls (r : Nat × Nat) : Word := vget s.hp.cls (vget s.hp.slots r.1).cls
  let fill := 8 * least (rows.map fun r => fld (cls r) 27 21)
  let hold := 1000 * least (rows.map fun r => fld (cls r) 19 0)
  let t0 := least (rows.map (·.2))
  let inTime := rows.filter fun r => r.2 == t0 || decide (r.2 < t0 + hold)
  if rows.isEmpty then none
  else if fill ≤ inTime.length ∨ t0 + hold ≤ s.now.toNat then some inTime
  else none

/-- The groups of a micro-batch: up to GROUPS, those with the oldest ready row first. `n` bounds them. -/
def batchGroups : Nat → List (Nat × Nat) → List Nat
  | 0, _ => []
  | n + 1, rows =>
    let t := least (rows.map (·.2))
    match rows.find? (fun r => r.2 == t) with
    | none => []
    | some r => r.1 / 8 :: batchGroups n (rows.filter fun x => x.1 / 8 != r.1 / 8)

/-- The STEP record: WGEN, the group count, the group numbers, and for each group a bitmap of its new slots (R364, log entry
37). -/
def stepRecord (h : Hp) (wgen : BitVec 16) (groups : List Nat) (rows : List (Nat × Nat)) : List Byte :=
  let fresh (g : Nat) : Nat := ((List.range 8).map fun i =>
    if rows.any (fun r => r.1 == 8 * g + i) && (vget h.slots (8 * g + i)).fresh then 2 ^ i else 0).foldl (· + ·) 0
  leBytes 2 wgen.toNat ++ leBytes 2 groups.length ++ groups.map (fun g => BitVec.ofNat 8 g) ++ groups.map fun g => BitVec.ofNat 8 (fresh g)

/-- MICRO_BATCH_START (R365): the admitter writes the STEP record; the start signal follows the move of its WPTR. -/
def microBatchStart (s : State) : State :=
  if !s.hp.admitter then s
  else
    let s := followLive s
    let all := readyRows s.hp
    let wgen := batchGen s.hp all
    match batchRows s (all.filter fun r => (vget s.hp.slots r.1).wgen == wgen) with
    | none => s
    | some rows =>
      let groups := batchGroups (fld s.hp.admCfg 55 49) rows
      let taken (i : Nat) : Bool := groups.contains (i / 8) && rows.any fun r => r.1 == i
      let bytes := stepRecord s.hp wgen groups rows
      let s : State := { s with hp := { s.hp with
        lastGen := wgen
        slots := s.hp.slots.mapIdx fun i x => if taken i then { x with stepping := true, readyNs := none, fresh := false } else x } }
      retireCheck (admissionRecord s 3 bytes)

def execMicroBatchStart (s : State) : Res := live s (.next (microBatchStart s))

/-! ### Saddle endpoints (R363) -/

/-- Whether an accept word names a ring of the notice store that no open ring overlaps (R363). -/
def nepRingOk (s : State) (e : Nat) (w : Word) : Bool :=
  let base := fld w 22 0
  let size := fld w 35 32
  decide (size ≤ 4) && base % 256 == 0 && decide (base + 4096 * 2 ^ size ≤ 4194304)
    && (List.range 256).all fun k =>
      let r := s.recvEp .port k
      k == e || r.st == .closed || decide (r.base + r.z ≤ base ∨ base + 4096 * 2 ^ size ≤ r.base)

/-- A command of HP_NEP_CMD: while one runs it is refused, else it is taken (R363). -/
def nepCommand (action : Nat) (e : BitVec 8) (f : State → State) (s : State) : Status × State :=
  if bit s.hp.nepCmd 63 then (.refused .busy, s)
  else (.ok, f { s with hp := { s.hp with nepCmd := fw 63 63 1 ||| fw 62 60 action ||| fw 59 52 e.toNat } })

/-- Address of HP_NEP_CMD. -/
def nepCmdAddr : Nat := 0x02000000B8

/-- ACCEPT (R224, R363). An endpoint that is not CLOSED answers REFUSED with BUSY (log entry 43). -/
def nepAccept (e : BitVec 8) (s : State) : State :=
  let w := s.hp.nepWord
  let i := e.toNat
  if (s.recvEp .port i).st ≠ .closed then nepDone s 5 3
  else if !nepRingOk s i w then nepDone s 5 8
  else
    nepDone (listen (s.modRecv .port i fun r => { r with
      mp := 255, size := BitVec.ofNat 4 (fld w 35 32), base := fld w 22 0, wptr := 0, rptr := 0, landed := [] }) .port i) 1 0

def execHpNepAccept (ep : BitVec 8) (s : State) : Res := .next (s.mgmtOp nepCmdAddr (nepCommand 1 ep ((nepAccept ep))))

/-- OPEN and OPEN_RELAY (R225, R363): the request leaves; the command runs until the reply. -/
def nepOpen (relay : Bool) (e : BitVec 8) (s : State) : State :=
  let w := s.hp.nepWord
  let i := e.toNat
  if (s.sendEp .port i).st ≠ .closed then nepDone s 5 3
  else if 65536 < fld w 39 23 then nepDone s 5 5
  else
    let peer : Peer := { loc := false, svc := BitVec.ofNat 16 (fld w 63 48), saddle := true, unit := 1, ep := BitVec.ofNat 8 (fld w 47 40) }
    let s := s.modSend .port i fun x => { x with
      st := .opening, flowctl := true, statusOnly := true, credit := 0, maxlen := fld w 39 23, ring := 0, wcopy := 0, seq := 0, mp := 0
      peer, flights := [] }
    let s : State := { s with hp := { s.hp with
      relay := if relay then s.hp.relay ||| 1#256 <<< i else s.hp.relay &&& ~~~(1#256 <<< i) } }
    s.send { toPeer (Home.port.peer i (s.sendEp .port i).inc) peer .chOpen with arg := fw 63 47 (fld w 39 23), word := 0 }

def execHpNepOpen (ep : BitVec 8) (s : State) : Res := .next (s.mgmtOp nepCmdAddr (nepCommand 2 ep ((nepOpen false ep))))
def execHpNepOpenRelay (ep : BitVec 8) (s : State) : Res := .next (s.mgmtOp nepCmdAddr (nepCommand 3 ep ((nepOpen true ep))))

/-- CLOSE_SEND (R227, R363): it runs until the CLOSE record has credit. -/
def execHpNepCloseSend (ep : BitVec 8) (s : State) : Res := .next (s.mgmtOp nepCmdAddr (nepCommand 4 ep (flushClose)))

/-- CLOSE_RECV (R227, R363). -/
def nepCloseRecv (e : BitVec 8) (s : State) : State := nepDone (closeRecv s .port e.toNat) 1 0

def execHpNepCloseRecv (ep : BitVec 8) (s : State) : Res :=
  .next (s.mgmtOp nepCmdAddr (nepCommand 5 ep (fun s => nepDone (closeRecv s .port ep.toNat) 1 0)))

/-! ### Registers (R371) -/

def admStatWord (h : Hp) : Word :=
  fw 63 54 (freeSlots h) ||| fw 53 44 (usedSlots h 0) ||| fw 43 34 (usedSlots h 1) ||| fw 33 24 (usedSlots h 2) ||| fw 23 14 (usedSlots h 3)

def sectStatWord (h : Hp) (x : Section) : Word :=
  fw 63 48 x.next ||| fw 47 32 x.next ||| fw 31 16 x.deferred.length ||| fw 15 0 (x.vseq (h.emitter && !h.admitter))

def SlotState.code : SlotState → Nat
  | .free => 0
  | .opening => 1
  | .opened => 2
  | .closing => 3

def slotWord (x : Slot) : Word :=
  fw 63 62 x.st.code ||| fw 61 60 x.cls ||| fw 59 59 (if x.follow then 1 else 0) ||| fw 58 43 x.wgen.toNat ||| fw 42 39 x.sec
    ||| fw 31 0 x.lastPos.toNat

end Sys2Proof.Machine
end

