-- ==== Sys2Proof/Machine/Continuity.lean ====
section
/-! DEFINITION. The continuity unit: heartbeats, mirroring, failover and fail-stop (R337, R338, R373 to R400). -/

namespace Sys2Proof.Machine

/-! ### Messages (R383, R384) -/

def cuTypeOf (p : Pkt) : Nat := fld p.arg 63 60
def subjSvc (p : Pkt) : BitVec 16 := BitVec.ofNat 16 (fld p.arg 43 28)
def subjChip (p : Pkt) : Nat := fld p.arg 27 12
def msgIndex (p : Pkt) : Nat := fld p.arg 11 5

/-- A continuity message. -/
def cuMsg (s : State) (dst : BitVec 16) (ty : Nat) (svc : BitVec 16) (chip index : Nat) (body : List Byte := []) : Pkt :=
  { kind := .heartbeat, vc := 7, dsad := true, ssad := true, dstUnit := 3, srcUnit := 3, fabric := true, dstSvc := dst, body
    arg := fw 63 60 ty ||| fw 59 44 s.cu.beatSeq.toNat ||| fw 43 28 svc.toNat ||| fw 27 12 chip ||| fw 11 5 index }

def State.modCu (s : State) (f : Cu → Cu) : State := { s with cu := f s.cu }

def State.modWatch (s : State) (i : Nat) (f : Watch → Watch) : State := s.modCu fun c => { c with watch := vmod c.watch i f }

/-- The watched peer of a service ID. -/
def watchOf (s : State) (svc : BitVec 16) : Option Nat :=
  (List.range 32).find? fun i => (vget s.cu.watch i).valid && (vget s.cu.watch i).svc == svc

/-- A continuity message of a type arrives; any marks its sender as heard. TYPE 0 and 10 to 15 are discarded and counted
(R383, R384). -/
def cuArrive (p : Pkt) (ty : Nat) (s : State) (k : State → State) : State :=
  if p.kind ≠ .heartbeat ∨ (cuTypeOf p ≠ ty ∧ cuTypeOf p ≠ 0 ∧ cuTypeOf p < 10) then s
  else arrive s p fun s =>
    if cuTypeOf p ≠ ty then s.ingStat 47 32
    else
      let s := match watchOf s p.srcSvc with
        | some i => s.modWatch i fun w => { w with seen := true }
        | none => s
      k s

/-- A message to every other member but the failed one. -/
def toMembers (s : State) (ty : Nat) (x : BitVec 16) (chip index : Nat) (body : List Byte := []) : State :=
  (s.others.filter (· != x)).foldl (fun s m => s.send (cuMsg s m ty x chip index body)) s

/-! ### Beats (R383) -/

/-- A pending rewrite of a routing entry begins with the COPY of the active bank, as soon as the idle bank is free (R337,
R397). -/
def remapStart (s : State) : State :=
  if s.cu.remap.isSome && !s.fi.copying && !s.fi.bankBusy (!s.fi.epoch) then { s with fi := { s.fi with copying := true } } else s

/-- BEAT_TIMER (R383): a BEAT to every valid peer. -/
def beatTimer (s : State) : State :=
  let s := remapStart (s.modCu fun c => { c with beatSeq := c.beatSeq + 1 })
  (s.cu.watch.toList.filter fun w => w.valid).foldl (fun s w => s.send (cuMsg s w.svc 1 s.svc s.chip.toNat 0)) s

def execBeatTimer (s : State) : Res := live s (.next (beatTimer s))

/-! ### Loss and the lead of a failover (R383, R394, R395) -/

/-- The partition is lost (R394): reported; an admitter answers every deferred and admitted request with PARTITION_FAULT; the
cores are held. -/
def partitionLost (s : State) : State :=
  let s := (holdSteps (s.modCu fun c => { c with foPhase := 6 })).faultReport 0x0B09 (fw 54 39 s.cu.foSvc.toNat)
  if !s.hp.admitter then s
  else
    releaseSlots s 0x0B []

/-- The service ID whose routing entry names a chip. -/
def svcOfChip (s : State) (chip : Nat) : Option (BitVec 16) :=
  (((s.bank s.fi.epoch).map fun c => c.1 / 4).eraseDups.map fun n => BitVec.ofNat 16 n).find? fun v =>
    let e := s.route s.fi.epoch v
    bit e 31 && fld e 15 0 == chip

/-- Where the record area of a member lies on its partner (R388, R422): the area that its program names. -/
def areaOf (s : State) (svc : BitVec 16) : Nat :=
  match s.prog with
  | some p => match p.sections.lookup svc with
    | some x => x.areaTa.toNat
    | none => 0
  | none => 0

/-- CHIP and PINC of the failed member, from its service record in this partner's mirror region (R389). -/
def failedIdent (s : State) (x : BitVec 16) : Nat × Nat :=
  let r := s.tierRead (areaOf s x) 6
  (if recFld r 0 2 = x.toNat then recFld r 4 2 else fld (s.route s.fi.epoch x) 15 0, recFld r 2 2)

/-- TAKEOVER goes to the spare in turn; with none left CU_NO_SPARE is raised and the partition is lost (R395). -/
def trySpare (s : State) : State :=
  match ((List.range 4).filter fun i => s.cu.spareIdx ≤ i && bit (vget s.cu.spare i) 63).head? with
  | none => partitionLost (s.faultReport 0x0B08 (fw 54 39 s.cu.foSvc.toNat))
  | some i =>
    let chip := fld (vget s.cu.spare i) 15 0
    let (failed, pinc) := failedIdent s s.cu.foSvc
    let s := s.modCu fun c => { c with foPhase := 2, spareIdx := i, foChip := BitVec.ofNat 16 chip }
    match svcOfChip s chip with
    | some svc => s.send (cuMsg s svc 5 s.cu.foSvc failed 0
        ((leBytes 2 failed ++ leBytes 2 pinc ++ leBytes 2 s.chip.toNat ++ List.replicate 26 0)))
    | none => s

/-- The lead begins a failover (R395): HOLD to every member, then the spares. -/
def leadFailover (s : State) (x : BitVec 16) : State :=
  let s := s.modCu fun c => { c with lead := true, foPhase := 1, foSvc := x, foChip := 0, spareIdx := 0, reports := [], restored := false }
  trySpare (toMembers (holdSteps s) 3 x 0 0)

/-- The loss of a package is known (R288); losses that no window can still name are dropped. -/
def noteLoss (s : State) (svc : BitVec 16) (at_ : Nat) : State :=
  s.modCu fun c => { c with losses := (svc, at_) :: c.losses.filter fun w => decide (s.now.toNat ≤ w.2 + 5000600000) }

/-- A peer is lost (R383): a failed member ends a weight load (R311); its partner leads its failover; a second loss during one
loses the partition (R394). -/
def peerLost (s : State) (i : Nat) (lossAt : Word) : State :=
  let x := (vget s.cu.watch i).svc
  let member := s.members.contains x
  let s := (noteLoss s x lossAt.toNat).modWatch i fun w => { w with lost := true, lossAt, lossNs := BitVec.ofNat 32 lossAt.toNat }
  let s := if member && s.ws.load.reader && s.ws.load.running then failLoad s 8 else s
  if s.cu.foPhase ≠ 0 ∧ s.cu.foPhase ≠ 6 ∧ (member || x == s.cu.foSvc) then partitionLost s
  else if s.cu.foPhase = 0 && member && s.mirrorOn && fld s.cu.mirrorCfg 59 44 == x.toNat then leadFailover s x
  else s

/-- The start of the window of 100 µs that has just ended. -/
def windowStart (s : State) : Word := BitVec.ofNat 64 (s.now.toNat / 100000 * 100000 - 100000)

/-- A peer's window ends (R383). -/
def watchWindow (s : State) (i : Nat) : State :=
  let w := vget s.cu.watch i
  if !w.valid || w.lost then s
  else if w.seen then s.modWatch i fun w => { w with seen := false, missed := 0 }
  else
    let first := if w.missed = 0 then windowStart s else w.lossAt
    let s := s.modWatch i fun w => { w with missed := min 3 (w.missed + 1), lossAt := first }
    if 2 ≤ w.missed then peerLost s i first else s

/-- HEARTBEAT_WINDOW_END (R383). -/
def heartbeatWindowEnd (s : State) : State := (List.range 32).foldl watchWindow s

def execHeartbeatWindowEnd (s : State) : Res := live s (.next (heartbeatWindowEnd s))

/-- BEAT (R384). -/
def beat (p : Pkt) (s : State) : State := cuArrive p 1 s fun s => s

def execBeat (p : Pkt) (s : State) : Res := live s (.next (beat p s))

/-- FAIL (R383): its sender is lost at once; the body's second word is its TIME_NS. The service knows of it where the sender is no watched
peer too (R288). -/
def failMsg (p : Pkt) (s : State) : State :=
  cuArrive p 2 s fun s =>
    match watchOf s p.srcSvc with
    | some i => if (vget s.cu.watch i).lost then s else peerLost s i (wordOf (slice p.body 8 8))
    | none => noteLoss s p.srcSvc (wordOf (slice p.body 8 8)).toNat

def execFailMsg (p : Pkt) (s : State) : Res := live s (.next (failMsg p s))

/-- HOLD at a member (R395). -/
def holdMsg (p : Pkt) (s : State) : State :=
  cuArrive p 3 s fun s => holdSteps (s.modCu fun c => { c with foPhase := 1, foSvc := subjSvc p })

def execHoldMsg (p : Pkt) (s : State) : Res := live s (.next (holdMsg p s))

/-! ### The mirror (R386, R387, R391, R393) -/

/-- A MIRROR packet to a member. -/
def mirrorPkt (dst : BitVec 16) (part : BitVec 3) (ta : Nat) (ackreq : Bool) (data : List Byte) : Pkt :=
  { kind := .mirror, vc := 6, ssad := true, srcUnit := 3, fabric := true, dstSvc := dst
    arg := fw 63 27 ta ||| fw 26 26 (if ackreq then 1 else 0) ||| fw 25 23 part.toNat, body := slice data 0 256 }

def partnerOf (s : State) : BitVec 16 := BitVec.ofNat 16 (fld s.cu.mirrorCfg 59 44)

/-- ROWS and UNCOMMITTED follow the rows sent. -/
def mirrorCount (s : State) (n : Nat) : State :=
  s.modCu fun c => { c with mirrorStat := setFld (satAdd c.mirrorStat 63 32 n) 14 14 (if c.sent.isEmpty then 0 else 1) }

/-- MIRROR_TAP_COPY (R386): the rows that the tap has taken leave. -/
def mirrorTapCopy (s : State) : State :=
  let rows := s.cu.tap
  let s := rows.foldl (fun s r => s.send (mirrorPkt (partnerOf s) r.part r.ta r.ackreq r.data)) s
  mirrorCount (s.modCu fun c => { c with tap := [], sent := c.sent ++ rows }) rows.length

def execMirrorTapCopy (s : State) : Res := live s (.next (mirrorTapCopy s))

/-- MIRROR_ROW_ARRIVAL (R387): the row asks for the write side of its column's port as requester 9 (R266), and ACKREQ draws the RESP when the
row and every earlier one of its source have been written. PART 5 to 7 is reserved; a row that names no byte is written nowhere. A spare keeps
where the first restore row lands. -/
def mirrorRowArrival (p : Pkt) (s : State) : State :=
  if p.kind ≠ .mirror then s
  else arrive s p fun s =>
    let ta := fld p.arg 63 27
    let reply (s : State) (status reason : Nat) : State := if p.expectsResp then s.send (p.reply status reason 0) else s
    if s.cu.fences.contains .package then reply s 2 7
    else if 5 ≤ fld p.arg 25 23 then s.ingStat 47 32
    else
      let s := if fld p.arg 25 23 = 4 && s.cu.restoreTa.isNone then s.modCu fun c => { c with restoreTa := some ta } else s
      let s := s.modCu fun c => { c with mirrorIn := c.mirrorIn ++ [(p, false)] }
      if ta % 2 ^ 26 < tierBytes then
        portJoin s (taColumn ta) .write { requester := 9, ta := BitVec.ofNat 37 ta, beats := 1, data := p.body } (.mirror p)
      else s.mirrorLanded p

def execMirrorRowArrival (p : Pkt) (s : State) : Res := live s (.next (mirrorRowArrival p s))

/-- Rows sent up to the oldest that asked for its RESP are acknowledged. During a resync none is committed (R387, R393). -/
def commitRows (s : State) : State :=
  match s.cu.sent.find? (fun r => r.ackreq) with
  | none => s
  | some r =>
    let s := s.modCu fun c => { c with sent := c.sent.filter fun x => decide (r.seq < x.seq), acked := r.seq }
    let s := if bit s.cu.mirrorStat 15 then s else s.modCu fun c => { c with committed := r.seq }
    mirrorCount s 0

/-- MIRROR_ACK (R387). -/
def mirrorAck (p : Pkt) (s : State) : State :=
  if p.kind ≠ .resp ∨ fld p.word 5 0 ≠ 4 then s
  else arrive s p fun s => if fld p.arg 63 60 = 0 then commitRows s else s

def execMirrorAck (p : Pkt) (s : State) : Res := live s (.next (mirrorAck p s))

/-- Every row of the pool and staging windows goes to a package (R393, R397). -/
def copyWindows (s : State) (dst : BitVec 16) : State :=
  let lo := fld s.cu.mirrorCfg 21 0
  let hi := fld s.cu.mirrorCfg 43 22
  let stage := s.cu.mirrorStage.toNat
  let s := (List.range (hi - lo)).foldl (fun s i =>
    let page := (lo + i) / 1024 * 2 ^ 26 + (lo + i) % 1024 * 49152
    (List.range 192).foldl (fun s j => s.send (mirrorPkt dst 0 (page + 256 * j) false (s.tierRead (page + 256 * j) 256))) s) s
  let s := (List.range 2048).foldl (fun s j =>
    s.send (mirrorPkt dst 1 (s.cu.mirrorArea.toNat + 256 * j) false (s.tierRead (stage + 256 * j) 256))) s
  mirrorCount s (192 * (hi - lo) + 2048)

/-- MIRROR_RESYNC_DONE (R393, R397): both windows have been copied again. It ends a lead's failover. -/
def mirrorResyncDone (s : State) : State :=
  if !bit s.cu.mirrorStat 15 then s
  else
    let s := copyWindows s (partnerOf s)
    s.modCu fun c => { c with
      mirrorStat := clrFld c.mirrorStat 15 15, committed := c.acked
      foPhase := if c.foPhase = 5 then 0 else c.foPhase, lead := if c.foPhase = 5 then false else c.lead }

def execMirrorResyncDone (s : State) : Res := live s (.next (mirrorResyncDone s))

/-! ### TAKEOVER at the spare (R396) -/

/-- TAKEOVER (R394, R396): a package with firmware and no program fences its own identity. -/
def takeover (p : Pkt) (s : State) : State :=
  cuArrive p 5 s fun s =>
    if s.prog.isSome || s.cu.fences.contains .package || s.cu.isSpare then s
    else s.modCu fun c => { c with assume_ := some p, fences := c.fences ++ [.package] }

def execTakeover (p : Pkt) (s : State) : Res := live s (.next (takeover p s))

/-- Package incarnations advance by 1, skipping 0 (R379). -/
def nextPinc (n : BitVec 16) : BitVec 16 := if n + 1 = 0 then 1 else n + 1

/-- The spare's fence has closed: it takes the failed member's service ID and incarnation, names the lead as its partner, and
answers TAKEN (R396). -/
def assumeIdentity (p : Pkt) (s : State) : State :=
  let s : State := { s with
    svc := subjSvc p, pinc := nextPinc (BitVec.ofNat 16 (recFld p.body 2 2))
    cu := { s.cu with
      assume_ := none, isSpare := true, foPhase := 3, foSvc := subjSvc p, foChip := s.chip, restored := false, restoreTa := none
      mirrorCfg := setFld s.cu.mirrorCfg 59 44 p.srcSvc.toNat } }
  s.send (cuMsg s p.srcSvc 6 s.svc s.chip.toNat 0)

/-- A journal entry of a section and role on the spare, with its absolute number: none where the journal holds none (R388, R391). -/
def journalAt (s : State) (area sec : Nat) (emitter : Bool) (i : Nat) : Option (Nat × List Byte) :=
  let e := s.tierRead (area + 0x1000000 + 0x40000 * (2 * sec + if emitter then 1 else 0) + 256 * i) 256
  let acked := recFld e (if emitter then 88 else 80) 8
  if recFld e 2 1 = 0 then none
  else some (acked + (recFld e 0 2 + 65536 - acked % 65536) % 65536, e)

/-- The entries of a section and role in the order of their numbers. -/
def journalOf (s : State) (area sec : Nat) (emitter : Bool) : List (Nat × List Byte) :=
  ((List.range 1024).filterMap fun i => journalAt s area sec emitter i).mergeSort fun a b => decide (a.1 ≤ b.1)

/-- What a journal tells of each request: its last status, and for a DEFERRED one its record number. -/
def journalKnown (j : List (Nat × List Byte)) : List (Nat × Nat × Nat) :=
  let ids := (j.map fun e => recFld e.2 8 8).eraseDups
  ids.filterMap fun i => (j.reverse.find? fun e => recFld e.2 8 8 == i).map fun e => (i, recFld e.2 2 1, recFld e.2 64 8 - 1)

/-- REPLAY_FROM of a section: the oldest request with neither ADMITTED nor REFUSED in the journal (R396). -/
def replayFrom (j : List (Nat × List Byte)) : Nat :=
  let next := match j.getLast? with
    | some e => recFld e.2 64 8
    | none => 0
  ((journalKnown j).filter fun k => k.2.1 == 2).foldl (fun n k => min n k.2.2) next

/-- The service record that the spare holds: host addresses and sections (R389, R396). -/
def takeAddresses (s : State) (r : List Byte) : State :=
  let host := bit (r.getD 6 0) 3
  let s : State := if bit (r.getD 6 0) 4 then { s with fi := { s.fi with timeCfg := setFld s.fi.timeCfg 47 47 1 } } else s
  if !host then s
  else
    let word (i : Nat) : Word := wordOf (slice r i 8)
    let secs : Vector Section 16 := s.hp.sections.mapIdx fun i x => { x with
      cfg := word (1088 + 32 * i), raddr := word (1096 + 32 * i), rkey := word (1104 + 32 * i) }
    let qps := secs.toList.foldl (fun q (x : Section) => if x.en then vmod q x.qp fun (y : Qp) => { y with error := true } else q) s.hp.qps
    { s with hp := { s.hp with
      mac := word 8, ip4 := BitVec.ofNat 64 (recFld r 16 4), ip6Lo := word 20, ip6Hi := word 28, sections := secs, qps } }

/-- The admission state of a section from the journal (R396, R398, R399). -/
def restoreSection (s : State) (area sec : Nat) : State :=
  let a := journalOf s area sec false
  let e := journalOf s area sec true
  let next (j : List (Nat × List Byte)) : Nat := match j.getLast? with
    | some x => x.1 + 1
    | none => 0
  let acked (j : List (Nat × List Byte)) (o : Nat) : Nat := match j.getLast? with
    | some x => recFld x.2 o 8
    | none => 0
  let wait (j : List (Nat × List Byte)) (o : Nat) : List RespRec :=
    (j.filter fun x => acked j o ≤ x.1).map fun x => { vseq := x.1, journal := 0, data := slice x.2 0 64 }
  s.modSec sec fun x => { x with
    next := replayFrom a, arrived := [], deferred := [], vseqA := next a, vseqE := next e, ackA := acked a 80, ackE := acked e 88
    statusRecs := wait a 80, tokenRecs := wait e 88, known := (journalKnown a).map fun k => (k.1, k.2.1) }

/-- A slot from its waymark (R390), and LAST_POS from the token records of the journal. -/
def restoreSlot (s : State) (area i : Nat) : State :=
  let w := s.tierRead (area + 0x1000 + 512 * i) 512
  let sec := recFld w 56 1
  let toks := ((journalOf s area sec true).filter fun e => recFld e.2 4 4 == i && recFld e.2 20 1 != 0)
  let last := toks.foldl (fun m e => max m (recFld e.2 16 4 + recFld e.2 20 1 - 1)) 0
  let s : State := { s with tm := { s.tm with slotGen := vset s.tm.slotGen i (BitVec.ofNat 8 (recFld w 18 1)) } }
  if recFld w 2 1 ≠ 1 then s
  else s.modSlot i fun _ => {
    st := .opened, cls := recFld w 19 1, follow := bit (w.getD 3 0) 0, wgen := BitVec.ofNat 16 (recFld w 16 2), sec
    lastPos := BitVec.ofNat 32 last, blocks := chargeOf s.hp (slice w 256 256), record := slice w 256 256, prompt := true }

/-- Whether every copy that the program keeps is ACTIVE (R396). -/
def copiesActive (s : State) : Bool :=
  match s.ws.gens.toList.find? (fun g => g.st == 2) with
  | some g => (List.range 16).all fun i => !(s.keepsSet i) || (vget s.ws.sets i).mode == 0 || copyReady s g i
  | none => (List.range 16).all fun i => !(s.keepsSet i)

/-- SPARE_RESTORE_COMPLETE (R396): the restore rows have landed. The spare first takes the addresses of the failed member, sends
the TAKEOVER report, and begins to read the program that the service record names; with the program loaded and every copy ACTIVE it writes its page map, slots and sections from what the lead
restored, and answers RESTORED. -/
def spareRestoreComplete (s : State) : State :=
  match s.cu.restoreTa with
  | none => s
  | some area =>
    if !s.cu.isSpare || s.cu.foPhase != 3 then s
    else
      let s := if s.cu.restored then s
        else
          let r := s.tierRead area 4096
          let s := takeAddresses s r
          let src : BundleSrc := { rkey := BitVec.ofNat 32 (recFld r 36 4), raddr := BitVec.ofNat 64 (recFld r 40 8), length := BitVec.ofNat 64 (recFld r 48 8) }
          let s : State := { s with ms := { s.ms with ownLoad := true, load := fw 63 61 1, loadSrc := src } }
          let from_ := (List.range 16).flatMap fun i => leBytes 8 (replayFrom (journalOf s area i false))
          (s.modCu fun c => { c with restored := true }).report 0x42 (leBytes 2 s.svc.toNat ++ leBytes 2 s.chip.toNat ++ from_)
      if s.prog.isNone || !copiesActive s then s
      else
        let s : State := { s with pageMap := Mem.write s.pageMap 0 (s.tierRead (area + 0x800000) 0x800000) }
        let s := (List.range 512).foldl (fun s i => restoreSlot s area i) s
        let s := (List.range 16).foldl (fun s i => restoreSection s area i) s
        let s := s.modCu fun c => { c with restoreTa := none }
        s.send (cuMsg s (partnerOf s) 8 s.svc s.chip.toNat 0)

def execSpareRestoreComplete (s : State) : Res := live s (.next (spareRestoreComplete s))

/-! ### The failover at lead and members (R395, R397, R398) -/

/-- The rows that the lead restores to the spare: the record area of the failed member, then each pool page that a valid entry of
its shadow page map names (R395). -/
def sendRestore (s : State) : State :=
  let x := s.cu.foSvc
  let area := areaOf s x
  let row (s : State) (ta : Nat) : State := s.send (mirrorPkt x 4 ta false (s.tierRead ta 256))
  let s := (List.range 98304).foldl (fun s i => row s (area + 256 * i)) s
  let shadow := s.tierRead (area + 0x800000) 0x800000
  let pages := ((List.range 2097152).map fun i => BitVec.ofNat 32 (recFld shadow (4 * i) 4)).filter fun e => bit e 31
  pages.foldl (fun s e => (List.range 192).foldl (fun s j => row s (entryTa e + 256 * j)) s) s

/-- The entry that a member writes for the failed service ID (R397): the spare's own entry, or the old one with its chip. -/
def remapEntry (s : State) (x : BitVec 16) (chip : Nat) : BitVec 32 :=
  match svcOfChip s chip with
  | some v => s.route s.fi.epoch v
  | none => BitVec.ofNat 32 ((s.route s.fi.epoch x).toNat / 65536 * 65536 + chip)

/-- A member rewrites its routing entry by COPY, write and FLIP (R397). -/
def remapTo (s : State) (x : BitVec 16) (chip : Nat) : State :=
  remapStart (s.modCu fun c => { c with foChip := BitVec.ofNat 16 chip, remap := some (x, remapEntry s x chip) })

/-- RT_COPY_DONE (R337): the idle bank holds the active one. A remap then writes its entry and flips, and the lead's restore rows
leave (R395, R397). -/
def copyDone (s : State) : State :=
  let was := s.fi.copying
  let s := rtCopyDone s
  match s.cu.remap with
  | some (x, e) =>
    if !was then s
    else
      let b := !s.fi.epoch
      let s := s.setBank b (Mem.write (s.bank b) (4 * x.toNat) (leBytes 4 e.toNat))
      let s := (rtFlip s).2
      let s := s.modCu fun c => { c with remap := none }
      if s.cu.lead && s.cu.foPhase == 3 then sendRestore s else s
  | none => s

def execRtCopyDone (s : State) : Res := live s (.next (copyDone s))

/-- TAKEN at the lead (R395): the spare holds the identity; every member, the lead too, is remapped. -/
def taken (p : Pkt) (s : State) : State :=
  cuArrive p 6 s fun s =>
    if !s.cu.lead || s.cu.foPhase != 2 then s
    else
      let x := s.cu.foSvc
      let chip := s.cu.foChip.toNat
      let s := s.modCu fun c => { c with foPhase := 3 }
      let s := match watchOf s x with
        | some i => s.modWatch i fun w => { w with lost := false, missed := 0, seen := true }
        | none => s
      remapTo (toMembers s 7 x chip 0) x chip

def execTaken (p : Pkt) (s : State) : Res := live s (.next (taken p s))

/-- TAKEOVER_TIMEOUT (R395): the spare has not answered within 1 ms. -/
def takeoverTimeout (s : State) : State :=
  if !s.cu.lead || s.cu.foPhase != 2 then s
  else trySpare (s.modCu fun c => { c with spareIdx := c.spareIdx + 1 })

def execTakeoverTimeout (s : State) : Res := live s (.next (takeoverTimeout s))

/-- Row 0 of a slot's waymark in this package's staging window (R390). -/
def ownWaymark (s : State) (i : Nat) : List Byte := s.tierRead (s.cu.mirrorStage.toNat + 0x1000 + 512 * i) 256

/-- What a member reports of a slot: NEXT_POS and TOKEN_0. -/
def ownPos (s : State) (i : Nat) : SlotPos :=
  let w := ownWaymark s i
  { svc := s.svc, slot := i, pos := BitVec.ofNat 32 (recFld w 8 4), token := BitVec.ofNat 32 (recFld w 36 4) }

/-- REMAP at a member (R395, R397): the routing entry, and REPORT for every slot to the lead. -/
def remap (p : Pkt) (s : State) : State :=
  cuArrive p 7 s fun s =>
    let s := remapTo s (subjSvc p) (subjChip p)
    (List.range 128).foldl (fun s i => s.send (cuMsg s p.srcSvc 4 (subjSvc p) (subjChip p) i
      ((List.range 4).flatMap fun j => leBytes 4 (ownPos s (4 * i + j)).pos.toNat ++ leBytes 4 (ownPos s (4 * i + j)).token.toNat))) s

def execRemap (p : Pkt) (s : State) : Res := live s (.next (remap p s))

/-- N of a slot and its input token: the least NEXT_POS of the members and of the failed one's committed waymark; the token is the
one that a report or that waymark gives (log entry 44). -/
def resumePos (s : State) (i : Nat) : SlotPos :=
  let w := s.tierRead (areaOf s s.cu.foSvc + 0x1000 + 512 * i) 256
  let failed : SlotPos := { svc := s.cu.foSvc, slot := i, pos := BitVec.ofNat 32 (recFld w 8 4), token := BitVec.ofNat 32 (recFld w 36 4) }
  let all := failed :: ownPos s i :: s.cu.reports.filter fun r => r.slot == i
  let pos := least (all.map fun r => r.pos.toNat)
  let token := match all.find? (fun r => r.token != 0) with
    | some r => r.token
    | none => 0
  { svc := s.svc, slot := i, pos := BitVec.ofNat 32 pos, token }

/-- RESUME at a member (R398): every core is reset, every tollgate of the program returns to IDLE, and service holds no more; the
cores start at the recovery entry once their fences have closed. -/
def recover (s : State) (slots : List SlotPos) : State :=
  let s := if s.cu.recovering then s
    else
      let s := coreIds.foldl (fun s c => (sqReset c s).2) s
      let tgs : List (BitVec 8) := match s.sections with
        | some x => x.tollgates.map (·.1)
        | none => []
      let s := tgs.foldl (fun s n => s.modTg n.toNat fun t => { t with
        st := .idle, arrived := 0, peersIn := 0, nextIn := 0, admOk := false, cfg := clrFld t.cfg 61 61 }) s
      s.modCu fun c => { c with recovering := true, resume := [], foPhase := if c.lead then c.foPhase else 0 }
  s.modCu fun c => { c with resume := c.resume ++ slots }

/-- The lead resumes the partition once every report is in and the spare has RESTORED; its own windows then go to the spare (R395,
R397). -/
def resumeCheck (s : State) : State :=
  let x := s.cu.foSvc
  let heard := (s.others.filter (· != x)).all fun m => decide (512 ≤ (s.cu.reports.filter fun r => r.svc == m).length)
  if !s.cu.lead || s.cu.foPhase != 3 || !s.cu.restored || !heard then s
  else
    let groups := (List.range 128).filter fun g => (List.range 4).any fun j => (s.slotOf (4 * g + j)).st != .free
    let rows (g : Nat) : List SlotPos := (List.range 4).map fun j => resumePos s (4 * g + j)
    let s' := groups.foldl (fun t g => s.others.foldl (fun t m => t.send (cuMsg t m 9 x s.cu.foChip.toNat g
      ((rows g).flatMap fun r => leBytes 4 r.pos.toNat ++ leBytes 4 r.token.toNat))) t) s
    let s' := recover s' (groups.flatMap rows)
    s'.modCu fun c => { c with foPhase := 5, mirrorStat := setFld c.mirrorStat 15 15 1 }

/-- REPORT at the lead (R395). -/
def reportMsg (p : Pkt) (s : State) : State :=
  cuArrive p 4 s fun s =>
    if !s.cu.lead then s
    else
      let rows : List SlotPos := (List.range 4).map fun j => {
        svc := p.srcSvc, slot := 4 * msgIndex p + j
        pos := BitVec.ofNat 32 (recFld p.body (8 * j) 4), token := BitVec.ofNat 32 (recFld p.body (8 * j + 4) 4) }
      resumeCheck (s.modCu fun c => { c with
        reports := (c.reports.filter fun r => !(r.svc == p.srcSvc && r.slot / 4 == msgIndex p)) ++ rows })

def execReportMsg (p : Pkt) (s : State) : Res := live s (.next (reportMsg p s))

/-- RESTORED at the lead (R395). -/
def restored (p : Pkt) (s : State) : State :=
  cuArrive p 8 s fun s => if s.cu.lead then resumeCheck (s.modCu fun c => { c with restored := true }) else s

def execRestored (p : Pkt) (s : State) : Res := live s (.next (restored p s))

/-- RESUME (R398). -/
def resume (p : Pkt) (s : State) : State :=
  cuArrive p 9 s fun s => recover s ((List.range 4).map fun j => {
    svc := s.svc, slot := 4 * msgIndex p + j
    pos := BitVec.ofNat 32 (recFld p.body (8 * j) 4), token := BitVec.ofNat 32 (recFld p.body (8 * j + 4) 4) })

def execResume (p : Pkt) (s : State) : Res := live s (.next (resume p s))

/-! ### Fail-stop (R374 to R377) -/

/-- The faults that cause fail-stop (R27, R277, R374, R428, R445). -/
def stopCodes : List Nat :=
  [0x0401, 0x0402, 0x0508, 0x0509, 0x0701, 0x0702, 0x0703, 0x0208, 0x0801, 0x0802, 0x0803, 0x0804, 0x0805, 0x0901, 0x0902,
   0x0B01, 0x0B02, 0x0B03, 0x0B04, 0x0B05, 0x0B06, 0x0A04, 0x0A0A, 0x0A0B, 0x0A0C, 0x0A0E, 0x0A0F]

/-- The fault register of the saddle unit that reports a trigger takes it (R349, R372, R427). -/
def noteFault (t : Trigger) (s : State) : State :=
  let code := t.code.toNat
  match code / 256 with
  | 8 => s.fiFault code t.place.toNat 15
  | 9 => { s with hp := { s.hp with fault := firstFault s.hp.fault (fw 63 48 code ||| fw 31 0 s.now.toNat) } }
  | 10 => s.msFault code
  | _ => s

/-- FAIL_STOP (R375): a unit reports a trigger. No other condition causes fail-stop (R374). -/
def execFailStop (t : Trigger) (s : State) : Res :=
  .next (if stopCodes.contains t.code.toNat then failStop t (noteFault t s) else s)

/-- FAIL_RECORD_RELEASE (R377): 0 is written to CU_FAIL_REC0.VALID, in a fail-stop too (R376). -/
def failRecordRelease (s : State) : State :=
  (s.modCu fun c => { c with failRec := c.failRec.set 0 (clrFld (c.failRec[0]) 0 0) }).emit (.mgmt 0x0100000008 true .ok 0)

def execFailRecordRelease (s : State) : Res := .next (failRecordRelease s)

/-! ### Registers (R401) -/

def cuStatusWord (c : Cu) : Word :=
  fw 63 62 (if c.failstop then 1 else 0) ||| fw 61 61 (if c.failN then 1 else 0) ||| fw 60 57 c.foPhase.toNat
    ||| fw 56 56 (if c.lead then 1 else 0) ||| fw 55 55 (if c.isSpare then 1 else 0) ||| fw 54 39 c.foSvc.toNat
    ||| fw 38 23 c.foChip.toNat

def watchWord (w : Watch) : Word :=
  fw 63 63 (if w.valid then 1 else 0) ||| fw 62 62 (if w.lost then 1 else 0) ||| fw 61 60 w.missed ||| fw 47 32 w.svc.toNat
    ||| fw 31 0 w.lossNs.toNat

def coreIncWord (s : State) (m : Nat) : Word :=
  (List.range 4).foldl (fun w i => w ||| fw (16 * i + 15) (16 * i) (vget s.cores (4 * m + i)).inc.toNat) 0

end Sys2Proof.Machine
end

