-- ==== Sys2Proof/Machine/Reset.lean ====
section
/-! DEFINITION. Package resets, the phases' start, and the fences of a package (R379 to R381, R404 to R407, R456, R460, R461). -/

namespace Sys2Proof.Machine

/-! ### What firmware takes from the record (R409, R411) -/

/-- One byte pair of a record value, little-endian. -/
def tlvHalf (r : List Byte) (ty i : Nat) : Nat := recFld (tlv r ty) i 2

/-- The fields that are not locked by the seal (R409): FI_TIME_CFG's source and the mirror's partner. -/
def recordRw (s : State) : State :=
  let r := s.ms.record
  if r.isEmpty then s
  else
    let host := recFld (tlv r 0x8008) 4 1 % 2
    { s with
      fi := { s.fi with timeCfg := setFld (setFld s.fi.timeCfg 63 48 (tlvHalf r 0x8008 2)) 47 47 host }
      cu := { s.cu with mirrorCfg := setFld s.cu.mirrorCfg 59 44 (tlvHalf r 0x000A 0) } }

/-! ### Cold reset (R404, R406) -/

/-- What a cold reset keeps: the fuses. The straps stay as they were sampled (R453), and what the package has sent stays sent. -/
def coldState (s : State) (cause : BitVec 3) : State :=
  { part := s.part, slot := s.slot, errs := s.errs, out := s.out, draws := s.draws, pending := s.pending
    ms := {
      powered := s.ms.powered, resetN := s.ms.resetN, serial := s.ms.serial, fwHash := s.ms.fwHash, dbgHash := s.ms.dbgHash
      owner := s.ms.owner, idSecret := s.ms.idSecret, minSvn := s.ms.minSvn, cause } }

/-- The PLL phase begins (R404): the debug nonce and a nonzero incarnation come from the entropy source (R379, R424). -/
def startPhases (s : State) : State :=
  let (nonce, s) := State.drawN 6 s
  let (w, s) := s.draw
  { s with pinc := BitVec.ofNat 16 (w.toNat % 65535 + 1), ms := { s.ms with nonce, phase := 1 } }

def coldReset (cause : BitVec 3) (s : State) : State := startPhases (coldState s cause)

/-- RESET_N_ASSERT (R406, R460): a cold reset takes precedence over everything; the package waits for the release. -/
def execResetNAssert (s : State) : Res :=
  .next (let s := coldState s 1; { s with ms := { s.ms with resetN := false } })

/-- RESET_N_RELEASE (R404, R453): the straps are sampled, and the phases run. -/
def resetNRelease (strap : BitVec 3) (s : State) : State :=
  if s.ms.resetN then s
  else startPhases { s with slot := strap, ms := { s.ms with resetN := true, powered := true } }

def execResetNRelease (strap : BitVec 3) (s : State) : Res := .next (resetNRelease strap s)

/-- POWER_DOWN (R456): every state but the fuses is lost. -/
def execPowerDown (s : State) : Res :=
  .next (let s := coldState s 0; { s with slot := 0, errs := [], ms := { s.ms with resetN := false, powered := false } })

/-! ### Warm reset (R406, R407) -/

/-- A core at a package reset: IDLE, with its stores (R151, R406) and its sealed async mask. -/
def CoreSt.packageReset (k : CoreSt) : CoreSt :=
  { sq := { imem := k.sq.imem, clk := k.sq.clk }
    me := { active := { image := k.me.active.image }, stirrup := { image := k.me.stirrup.image }
            acc := k.me.acc, abuf := k.me.abuf, ascale := k.me.ascale }
    ve := { vob := k.ve.vob }
    cm := { mem := k.cm.mem, asyncMask := k.cm.asyncMask } }

/-- A port that stays UP through a warm reset (R407). -/
def FiPort.keep (p : FiPort) : FiPort :=
  { st := p.st, cable := p.cable, laneMap := p.laneMap, portInc := p.portInc, xoffRx := p.xoffRx, xoffTx := p.xoffTx
    expect := p.expect, seen := p.seen, vcs := p.vcs.map fun v => { depth := v.depth }, egress := p.egress, rotate := p.rotate
    rxNext := p.rxNext, rxAny := p.rxAny, nak := p.nak, txNext := p.txNext, replay := p.replay, dropMap := p.dropMap
    deskew := p.deskew, rxBlock := p.rxBlock, txBlock := p.txBlock, txLanes := p.txLanes }

/-- A port that a warm reset returns to OFF keeps its RWL field. -/
def FiPort.off (p : FiPort) : FiPort := { expect := p.expect }

/-- Whether every port is UP. -/
def allUp (s : State) : Bool := s.fi.ports.toList.all fun p => p.st == .up

/-- The warm reset, its fence closed (R406, R407). Firmware restarts in the Fabric phase, which ends there when
the ports stay UP. -/
def warmReset (cause : BitVec 3) (s : State) : State :=
  let up := !s.cu.failstop && allUp s
  let ms := s.ms
  recordRw { s with
    cores := s.cores.map CoreSt.packageReset
    sqStore := []
    tm := { slotGen := s.tm.slotGen }
    tgs := Vector.replicate 256 {}
    saddleQ := Vector.replicate 64 {}
    pn := { arbMode := s.pn.arbMode }
    fi := {
      chipValid := up && s.fi.chipValid, portMap := s.fi.portMap, pkey := s.fi.pkey, rtA := s.fi.rtA, rtB := s.fi.rtB
      epoch := s.fi.epoch, acceptSwap := s.fi.acceptSwap
      ports := s.fi.ports.map fun p => if up then p.keep else p.off }
    hp := {
      portStatus := s.hp.portStatus, mac := s.hp.mac, net := s.hp.net, ip4 := s.hp.ip4, ip6Hi := s.hp.ip6Hi, ip6Lo := s.hp.ip6Lo
      devKeys := s.hp.devKeys }
    ws := {}
    prog := none
    fsvc := {}
    cu := { failRec := s.cu.failRec, spare := s.cu.spare }
    ms := { ms with
      phase := if up then 8 else 7, lastFault := 0, cause, download := none, sessions := [], periodMs := 0, addrs := [], load := 0, loading := none, writing := false, ownLoad := false
      warm := none, kicked := false, reports := 0 }
    fprint := 0
    pinc := nextPinc s.pinc
    coreFaults := []
    net := [] }

/-- A warm reset begins (R406, R407): FAIL_N is released, and behind the package's fence no core issues. In a fail-stop nothing
is left to await. -/
def beginWarm (cause : BitVec 3) (s : State) : State :=
  if s.cu.failstop then warmReset cause s
  else { s with
    cu := { s.cu with failN := false, fences := s.cu.fences ++ [.package] }
    ms := { s.ms with warm := some cause }
    cores := s.cores.map fun k => { k with sq := { k.sq with
      st := .resetting, holds := 0, release := none, waitDma := none, bundle := [] } } }

/-- Whether a reset is running (R406). -/
def State.resetting (s : State) : Bool := !s.cu.failstop && s.ms.warm.isSome

/-! ### Closing fences (R380, R381) -/

/-- Whether a package has drained (R380): every request that its units issued, every async-port buffer, and every column-port
queue. -/
def packageDrained (s : State) : Bool :=
  coreIds.all (fun c => coreDrained s c) && s.fi.awaited.isEmpty
    && s.tm.cols.toList.all fun k => k.read.queue.isEmpty && k.write.queue.isEmpty

/-- The package's fence closes: the warm reset or the takeover that awaited it goes on (R396, R407). -/
def closePackageFence (s : State) : State :=
  if !s.cu.fences.contains .package || !packageDrained s then s
  else
    let s := s.modCu fun c => { c with fences := c.fences.erase .package }
    match s.ms.warm with
    | some cause => warmReset cause s
    | none => match s.cu.assume_ with
      | some p => assumeIdentity p s
      | none => s

/-- After RESUME every core that the program has an image for starts at the recovery entry, once no core fences (R398). -/
def startRecovery (s : State) : State :=
  match s.cu.recovering && s.cu.fences.isEmpty, s.sections with
  | true, some x =>
    let s := x.images.foldl (fun s i => s.modSq i.core fun q => { q with
      st := .run, startPc := i.pc, pc := x.recoveryEntry, cycle := 0 }) s
    s.modCu fun c => { c with recovering := false }
  | _, _ => s

/-- FABRIC_REQUEST_TIMEOUT (R381): a request that has had no response completes PEER_RESET, as if its target had answered so. -/
def fabricRequestTimeout (n : Nat) (s : State) : State :=
  match s.fi.awaited[n]? with
  | none => s
  | some p =>
    let r : Pkt := { p.reply 2 7 0 with fabric := false }
    let s : State := { s with fi := { s.fi with awaited := s.fi.awaited.eraseIdx n }, net := r :: s.net }
    match fld r.word 5 0 with
    | 0 => deliveryIn r s
    | 1 | 2 => handshakeReply r s
    | 3 => contributionDone r s
    | _ => mirrorAck r s

def execFabricRequestTimeout (n : Nat) (s : State) : Res := live s (.next (fabricRequestTimeout n s))

end Sys2Proof.Machine
end

