-- ==== Sys2Proof/Machine/Boot.lean ====
section
/-! DEFINITION. The boot phases, firmware download, attestation and debug (R403 to R415, R420, R421, R423, R424, R427, R428). -/

namespace Sys2Proof.Machine

/-- The boot goes on in a phase unless a fault stopped it (R405). -/
def State.inPhase (s : State) (n : Nat) : Bool := s.ms.phase.toNat == n && s.ms.lastFault == 0 && !s.cu.failstop

def State.modMs (s : State) (f : Ms → Ms) : State := { s with ms := f s.ms }

/-! ### PLL to Host link (R404, R410, R412) -/

/-- ROOT_PLL_LOCK (R404): the PLL locks, the dividers align, and the boot ROM starts. -/
def rootPllLock (s : State) : State :=
  if !s.inPhase 1 then s else { (s.modMs fun m => { m with phase := 3 }) with ck := { s.ck with lock := true } }

def execRootPllLock (s : State) : Res := .next (rootPllLock s)

/-- CONFIG_READ_COMPLETE (R410): the record is verified, and an unclaimed package takes its owner. -/
def configReadComplete (r : List Byte) (s : State) : State :=
  if !s.inPhase 3 then s
  else match recordFault s.ms.owner r with
    | some code => s.startFault code 0
    | none => s.modMs fun m => { m with
        record := r, phase := 4, owner := if m.owner.isEmpty then sha384 (keyBytes (keyAt r 16)) else m.owner }

def execConfigReadComplete (r : List Byte) (s : State) : Res := .next (configReadComplete r s)

/-- A core after its self-test (R412): zeros with valid codes in every structure of R151, and in instruction memory. -/
def CoreSt.zeroed (k : CoreSt) : CoreSt :=
  { k with
    sq := { k.sq with imem := [] }
    cm := { k.cm with mem := [] }
    me := { k.me with acc := [], abuf := [], ascale := [] }
    ve := { k.ve with vob := [] } }

/-- SELF_TEST_COMPLETE (R412): the stores hold zeros, or the package fail-stops with MS_SELFTEST. -/
def selfTestComplete (bad : Option SelfTestFail) (s : State) : State :=
  if !s.inPhase 4 then s
  else match bad with
    | some b => (s.msFault 0x0A04).failCode 0x0A04 2 true b.place.toNat b.detail
    | none => { (s.modMs fun m => { m with phase := 5 }) with
        cores := s.cores.map CoreSt.zeroed, tier := [], pageMap := [], sqStore := [], errs := []
        hp := { s.hp with notice := [], ring := [] } }

def execSelfTestComplete (bad : Option SelfTestFail) (s : State) : Res := .next (selfTestComplete bad s)

/-- The phases that have a bound (R404). -/
def boundedPhases : List Nat := [1, 2, 3, 4, 5, 7, 8]

/-- BOOT_PHASE_TIMEOUT (R405). -/
def bootPhaseTimeout (s : State) : State := if boundedPhases.any s.inPhase then s.startFault 0x0A0D 0 else s

def execBootPhaseTimeout (s : State) : Res := .next (bootPhaseTimeout s)

/-! ### Identity bytes -/

def Part.gradeStep (p : Part) : Nat := (if p.is224 then 16 else 0) + if p.isA1 then 0 else 1

/-! ### JTAG (R424, R459) -/

/-- IDCODE: version, part number, manufacturer and the bit that is 1 (R459). -/
def Part.idcode (p : Part) : BitVec 32 :=
  BitVec.ofNat 32 ((if p.isA1 then 1 else 2) * 2 ^ 28 + (if p.is224 then 0xD224 else 0xD256) * 2 ^ 12 + 0x347 * 2 + 1)

/-- JTAG is unlocked in the boot ROM's phases, and after DEBUG_UNLOCK until the next cold reset (R424). -/
def State.jtagOpen (s : State) : Bool := decide (s.ms.phase.toNat ≤ 6) || s.ms.debug

/-- The instruction on which the TAP acts: while JTAG is locked every one but IDCODE acts as BYPASS (R424). -/
def State.tapActs (s : State) : TapIns := if s.jtagOpen || s.ms.tap == .idcode then s.ms.tap else .bypass

/-- Bits set in MIN_SVN (R403). -/
def minSvn (m : Ms) : Nat := popcount m.minSvn 64

/-- HELLO (R404, R418): every 100 ms until FW_BEGIN. -/
def hello (s : State) : State :=
  if !s.inPhase 6 || s.ms.download.isSome then s
  else s.report 0x01 (leBytes 6 s.ms.serial.toNat ++ [BitVec.ofNat 8 s.part.gradeStep, BitVec.ofNat 8 (minSvn s.ms)]
    ++ slice (recordMeasurement s.ms.record) 0 48)

def execHello (s : State) : Res := .next (hello s)

/-! ### Firmware (R413 to R415) -/

/-- FW_BEGIN (R414, R415). -/
def fwBegin (src : BitVec 128) (header : List Byte) (s : State) : State :=
  openRequest 0x02 true s fun s =>
    match s.ms.download with
    | some (other, _, _) =>
      if other = src then ((.ok, []), s.modMs fun m => { m with download := some (src, header, []) }) else ((.refused .busy, []), s)
    | none => ((.ok, []), s.modMs fun m => { m with download := some (src, header, []) })

def execFwBegin (src : BitVec 128) (header : List Byte) (s : State) : Res := .next (fwBegin src header s)

/-- FW_DATA (R414): at most 8,192 code bytes. -/
def fwData (src : BitVec 128) (off : Nat) (code : List Byte) (s : State) : State :=
  openRequest 0x03 true s fun s =>
    match s.ms.download with
    | some (other, header, pieces) =>
      if other ≠ src then ((.refused .busy, []), s)
      else if 8192 < code.length then ((.refused .format, []), s)
      else ((.ok, []), s.modMs fun m => { m with download := some (src, header, pieces ++ [(off, code)]) })
    | none => ((.refused .state, []), s)

def execFwData (src : BitVec 128) (off : Nat) (code : List Byte) (s : State) : Res := .next (fwData src off code s)

/-- How far pieces in the order of their offsets cover the code without a gap. -/
def reach (pieces : List (Nat × List Byte)) : Nat :=
  (pieces.mergeSort fun a b => decide (a.1 ≤ b.1)).foldl (fun n p => if p.1 ≤ n then max n (p.1 + p.2.length) else n) 0

/-- The code that pieces spell; a later piece overwrites an earlier one. -/
def assemble (len : Nat) (pieces : List (Nat × List Byte)) : List Byte :=
  let m : Mem := pieces.foldl (fun m p => Mem.write m p.1 p.2) []
  Mem.read m 0 len

/-- The checks of R414 in order: the fault of the first that fails. -/
def firmwareFault (m : Ms) (header : List Byte) (pieces : List (Nat × List Byte)) : Option Nat :=
  let len := recFld header 8 4
  let key := keyAt header 208
  if slice header 0 4 ≠ [0x4B, 0x58, 0x46, 0x57] ∨ recFld header 4 2 ≠ 1 ∨ header.length ≠ 512 ∨ 16776704 < len
      ∨ reach pieces ≠ len ∨ pieces.any (fun p => decide (len < p.1 + p.2.length)) then some 0x0A05
  else if sha384 (keyBytes key) ≠ m.fwHash ∨ !ecdsaVerify key (slice header 0 112) (sigAt header 112) then some 0x0A06
  else if slice header 64 48 ≠ sha384 (assemble len pieces) then some 0x0A06
  else if recFld header 12 4 < minSvn m then some 0x0A07
  else none

def bootRom : List Byte := slice Config.bootRomMeasurement 0 48

/-- The firmware measurement (R414). -/
def firmwareMeasurement (m : Ms) : List Byte := if m.firmware.1.isEmpty then [] else sha384 (m.firmware.1 ++ m.firmware.2)

/-- The attestation private scalar (R420). The secret and K are read as P-384 integers of R295 are. -/
def attestKey (m : Ms) : Nat :=
  1 + ofLe (hkdf384 [] (leBytes 48 m.idSecret) (bootRom ++ firmwareMeasurement m) 56) % (p384N - 1)

/-- What the identity key signs (R420). -/
def attestClaim (m : Ms) : List Byte :=
  keyBytes (publicOf (attestKey m)) ++ leBytes 6 m.serial.toNat ++ bootRom ++ firmwareMeasurement m

/-- Firmware starts: the identity key certifies the attestation key, once per boot (R420). -/
def certify (s : State) : State :=
  { (s.modMs fun m => { m with akSig := some (ecdsaSign m.idSecret (attestClaim m) (Config.signNonce s.draws)) }) with
    draws := s.draws + 1 }

/-- FI_Pp_EXPECT (R332): the near ports expect their plane and this slot of the tray, the far ports what CABLING names. -/
def expectWord (r : List Byte) (slot : Nat) (p : Nat) : Word :=
  let v := tlv r 0x8002
  if p < 6 then fw 63 56 p ||| fw 55 40 slot ||| fw 39 24 (recFld v 0 2 * 8 + slot)
  else
    let o := 4 + 6 * (p - 6)
    fw 63 56 (recFld v o 1) ||| fw 55 40 (recFld v (o + 2) 2) ||| fw 39 24 (recFld v (o + 4) 2)

/-- Partition key k of the record: enabled when the record has it. -/
def recordPkey (r : List Byte) (k : Nat) : Word :=
  let v := tlv r 0x8004
  if 2 * k < v.length then fw 63 63 1 ||| fw 15 0 (recFld v (2 * k) 2) else 0

/-- CM_ASYNC_MASK of the groups of the record (R160, R409). -/
def recordAsync (r : List Byte) : BitVec 32 :=
  let g := recFld (tlv r 0x8007) 0 1
  BitVec.ofNat 32 (((List.range 8).map fun i => g / 2 ^ i % 2 * 15 * 2 ^ (4 * i)).foldl (· + ·) 0)

/-- CU_SPAREn of the record. -/
def recordSpare (r : List Byte) (n : Nat) : Word :=
  let v := tlv r 0x000A
  if 4 + 2 * n ≤ v.length then fw 63 63 1 ||| fw 15 0 (recFld v (2 + 2 * n) 2) else 0

/-- HP_NET of the record. -/
def recordNet (r : List Byte) : Word :=
  let v := tlv r 0x8003
  let flags := recFld v 31 1
  fw 16 16 (flags % 2) ||| fw 15 13 (recFld v 30 1) ||| fw 12 12 (flags / 2 % 2) ||| fw 11 0 (recFld v 28 2)

/-- Firmware writes the values of the record into their registers (R409, R411). -/
def applyRecord (s : State) : State :=
  let r := s.ms.record
  let net := tlv r 0x8003
  let word (i n : Nat) : Word := BitVec.ofNat 64 (recFld net i n)
  recordRw { s with
    fi := { s.fi with
      pkey := Vector.ofFn fun k => recordPkey r k, acceptSwap := recFld (tlv r 0x8002) 2 2 % 2 == 1
      ports := s.fi.ports.mapIdx fun p x => { x with expect := expectWord r s.slot.toNat p } }
    hp := { s.hp with mac := word 0 6, ip4 := word 8 4, ip6Lo := word 12 8, ip6Hi := word 20 8, net := recordNet r }
    pn := { s.pn with arbMode := recFld (tlv r 0x8006) 0 1 == 1 }
    cores := s.cores.map fun k => { k with cm := { k.cm with asyncMask := recordAsync r } }
    cu := { s.cu with spare := Vector.ofFn fun n => recordSpare r n }
    reinLimit := BitVec.ofNat 8 ((reinOf (recFld (tlv r 0x8005) 0 1)).getD 0x80)
    svc := BitVec.ofNat 16 (tlvHalf r 0x8008 0) }

/-- MIN_SVN with its bits up to SVN set (R414). -/
def burnSvn (old : Word) (svn : Nat) : Word := old ||| BitVec.ofNat 64 (2 ^ svn - 1)

/-- FW_END (R414): the image is verified and firmware starts in the Fabric phase, or the fault answers. -/
def fwEnd (src : BitVec 128) (s : State) : State :=
  openRequest 0x04 true s fun s =>
    match s.ms.download with
    | none => ((.refused .state, []), s)
    | some (other, header, pieces) =>
      if other ≠ src then ((.refused .busy, []), s)
      else match firmwareFault s.ms header pieces with
        | some code => ((.refused (.code (code % 256)), leBytes 2 code), (s.msFault code).modMs fun m => { m with download := none })
        | none =>
          let svn := recFld header 12 4
          let s := s.modMs fun m => { m with
            download := none, firmware := (header, assemble (recFld header 8 4) pieces), svn, phase := 7
            minSvn := if recFld header 20 4 % 2 = 1 then burnSvn m.minSvn svn else m.minSvn }
          ((.ok, []), certify (applyRecord s))

def execFwEnd (src : BitVec 128) (s : State) : Res := .next (fwEnd src s)

/-- FW_DOWNLOAD_TIMEOUT (R415): a download is abandoned. -/
def execFwDownloadTimeout (s : State) : Res := .next (s.modMs fun m => { m with download := none })

/-! ### MS_CTRL (R406, R411, R423, R427) -/

/-- SEAL (R411): in the Fabric phase, and in the Seal phase that follows it (R404, R407). -/
def msSeal (s : State) : Status × State :=
  if s.inPhase 7 || s.inPhase 8 then (.ok, { (s.modMs fun m => { m with phase := 8 }) with sealed := true }) else (.refused .state, s)

/-- READY (R404): the KDMP READY report. -/
def msReady (s : State) : Status × State :=
  if !s.sealed || s.ms.lastFault != 0 then (.refused .state, s)
  else (.ok, (s.modMs fun m => { m with phase := 9 }).report 0x05
    (leBytes 6 s.ms.serial.toNat ++ leBytes 2 s.chip.toNat ++ leBytes 2 s.svc.toNat ++ leBytes 2 s.pinc.toNat))

/-- START_ALL (R423): every enabled core in READY or DONE starts; a core in any other state is not started. -/
def msStartAll (s : State) : Status × State :=
  let live := coreIds.filter fun c => !s.fusedOff c
  let all := live.all fun c => (s.core c).sq.st == .ready || (s.core c).sq.st == .done
  (if all then .ok else .refused .state, live.foldl (fun s c => (sqStart c s).2) s)

def msKick (s : State) : Status × State := (.ok, s.modMs fun m => { m with kicked := true })

/-- A write of MS_CTRL. -/
def msCtrlAddr : Nat := 0x10

def execMsCtrlSeal (s : State) : Res := .next (s.mgmtOp msCtrlAddr msSeal)
def execMsCtrlReady (s : State) : Res := .next (s.mgmtOp msCtrlAddr msReady)
def execMsCtrlStartAll (s : State) : Res := .next (s.mgmtOp msCtrlAddr msStartAll)
def execMsCtrlKick (s : State) : Res := .next (s.mgmtOp msCtrlAddr msKick)

/-- A reset by MS_CTRL is accepted in a fail-stop (R376), and ignored while a reset runs (R406). -/
def msReset (f : State → State) (s : State) : State :=
  if s.resetting then s.emit (.mgmt msCtrlAddr true (.refused .busy) 0) else f (s.emit (.mgmt msCtrlAddr true .ok 0))

def execMsCtrlColdReset (s : State) : Res := .next (msReset (coldReset 3) s)
def execMsCtrlWarmReset (s : State) : Res := .next (msReset (beginWarm 5) s)

/-- WATCHDOG_EXPIRY (R428): a window ends; without a kick the package fail-stops. -/
def watchdogExpiry (s : State) : State :=
  if !s.firmwareRuns then s
  else if s.ms.kicked then s.modMs fun m => { m with kicked := false }
  else (s.msFault 0x0A0C).failCode 0x0A0C 2 true

def execWatchdogExpiry (s : State) : Res := live s (.next (watchdogExpiry s))

/-! ### Resets by KDMP (R406, R418) -/

def kdmpReset (k : Kdmp) (f : State → State) (s : State) : State :=
  sessionRequest 0x36 k s fun s => if s.resetting then ((.refused .busy, []), s) else ((.ok, []), f s)

def execResetWarm (k : Kdmp) (s : State) : Res := .next (kdmpReset k (beginWarm 4) s)
def execResetCold (k : Kdmp) (s : State) : Res := .next (kdmpReset k (coldReset 2) s)

/-- PROG_START (R423). -/
def execProgStart (k : Kdmp) (s : State) : Res :=
  .next (liveRequest 0x31 k s fun s => let (st, s) := msStartAll s; ((st, []), s))

/-! ### Sessions (R417) -/

/-- A number that 48 bytes of entropy spell. -/
def bytesOfWords (ws : List Word) : List Byte := (ws.map wordBytes).flatten

/-- SESSION_OPEN (R417): at most eight sessions are held. -/
def sessionOpen (keyIdx : Nat) (pub : Point) (s : State) : State :=
  openRequest 0x10 false s fun s =>
    if !onCurve pub then ((.refused .auth, []), s.countAuth)
    else
      let (ds, s) := State.drawN 6 s
      let (cs, s) := State.drawN 6 s
      let d := 1 + ofLe (bytesOfWords ds) % (p384N - 1)
      let n := s.ms.nextSession
      let x : Session := { num := n, keyIdx, hostPub := pub, devPriv := d, challenge := bytesOfWords cs }
      let kept := if 8 ≤ s.ms.sessions.length then s.ms.sessions.tail else s.ms.sessions
      ((.ok, keyBytes (publicOf d) ++ x.challenge ++ leBytes 2 n.toNat),
        s.modMs fun m => { m with sessions := kept ++ [x], nextSession := if n + 1 = 0 then 1 else n + 1 })

def execSessionOpen (keyIdx : Nat) (pub : Point) (s : State) : Res := .next (sessionOpen keyIdx pub s)

/-- Whether a proof of a session holds (R417). -/
def proofOk (m : Ms) (x : Session) (pub : Point) (sg : Sig) : Bool :=
  (mgmtKeys m.record)[x.keyIdx]? == some (sha384 (keyBytes pub))
    && ecdsaVerify pub (keyBytes x.hostPub ++ keyBytes (publicOf x.devPriv) ++ x.challenge) sg

/-- SESSION_PROOF (R417). -/
def sessionProof (session : BitVec 16) (pub : Point) (sg : Sig) (s : State) : State :=
  openRequest 0x11 false s fun s =>
    match s.session session with
    | none => ((.refused .auth, []), s)
    | some x =>
      if !proofOk s.ms x pub sg then ((.refused .auth, []), s.countAuth)
      else ((.ok, []), s.modSession session fun x => { x with
        key := some (hkdf384 x.challenge (leBytes 48 (ecdh x.devPriv x.hostPub)) [] 48) })

def execSessionProof (session : BitVec 16) (pub : Point) (sg : Sig) (s : State) : Res := .next (sessionProof session pub sg s)

/-- SESSION_TIMEOUT (R417): 600 s without a valid request. -/
def execSessionTimeout (session : BitVec 16) (s : State) : Res :=
  .next (s.modMs fun m => { m with sessions := m.sessions.filter fun x => x.num != session })

/-- IDENTITY (R403, R418). -/
def execIdentity (s : State) : Res := .next (openRequest 0x12 false s fun s => ((.ok, Config.idCerts), s))

/-! ### Attestation and debug (R420, R421, R424) -/

/-- A weight entry of the report: 72 bytes. -/
def weightEntry (i one : Nat) (wgen : BitVec 16) (st : BitVec 2) (ident : List Byte) : List Byte :=
  [BitVec.ofNat 8 i, BitVec.ofNat 8 one] ++ leBytes 2 wgen.toNat ++ [st.setWidth 8, 0, 0, 0] ++ slice ident 0 64

/-- One entry for each weight copy in VERIFIED or ACTIVE (codes 2 and 3 of R293). -/
def weightEntries (s : State) : List (List Byte) :=
  (List.range 16).flatMap fun i =>
    let x := vget s.ws.sets i
    (if 2 ≤ x.copy0.toNat then [weightEntry i 0 x.wgen0 x.copy0 x.id0] else [])
      ++ if 2 ≤ x.copy1.toNat then [weightEntry i 1 x.wgen1 x.copy1 x.id1] else []

/-- CROSS and REIN_LOW of the load record, and the measurement. -/
def programMarks (s : State) : Bool × Bool × List Byte :=
  match s.prog with
  | some p => (p.cross, p.reinLow, p.measurement)
  | none => (false, false, [])

/-- The report up to the identity key's signature (R421). -/
def attestBody (s : State) (nonce : List Byte) : List Byte :=
  let (cross, low, prog) := programMarks s
  let flags := (if s.ms.debug then 1 else 0) + (if s.sealed then 2 else 0) + (if cross then 4 else 0) + (if low then 8 else 0)
    + if s.cu.failstop then 16 else 0
  let ws := weightEntries s
  let sg := s.ms.akSig.getD { r := 0, s := 0 }
  [0x4B, 0x58, 0x41, 0x54] ++ leBytes 2 1 ++ leBytes 2 flags ++ leBytes 8 s.ms.serial.toNat ++ slice nonce 0 48
    ++ leBytes 2 s.svc.toNat ++ leBytes 2 s.chip.toNat ++ leBytes 2 s.pinc.toNat ++ [BitVec.ofNat 8 s.part.gradeStep, 0]
    ++ leBytes 4 s.ms.svn ++ leBytes 4 ws.length ++ bootRom ++ slice (recordMeasurement s.ms.record) 0 48
    ++ slice (firmwareMeasurement s.ms) 0 48 ++ slice prog 0 48 ++ wordBytes s.fprint ++ List.replicate 8 0 ++ ws.flatten
    ++ keyBytes (publicOf (attestKey s.ms)) ++ leBytes 48 sg.r ++ leBytes 48 sg.s

/-- ATTEST (R421). -/
def attest (nonce : List Byte) (s : State) : State :=
  openRequest 0x13 false s fun s =>
    let body := attestBody s nonce
    let sg := ecdsaSign (attestKey s.ms) body (Config.signNonce s.draws)
    ((.ok, body ++ leBytes 48 sg.r ++ leBytes 48 sg.s), { s with draws := s.draws + 1 })

def execAttest (nonce : List Byte) (s : State) : Res := .next (attest nonce s)

/-- Whether a debug certificate is accepted (R424). -/
def certOk (m : Ms) (c : List Byte) : Bool :=
  let key := keyAt c 64
  let h := sha384 (keyBytes key)
  c.length == 256 && slice c 0 4 == [0x4B, 0x58, 0x44, 0x42] && recFld c 8 8 == m.serial.toNat
    && slice c 16 48 == bytesOfWords m.nonce && (h == m.owner || h == m.dbgHash)
    && ecdsaVerify key (slice c 0 160) (sigAt c 160)

/-- DEBUG_UNLOCK (R424). -/
def debugUnlock (cert : List Byte) (s : State) : State :=
  openRequest 0x37 false s fun s =>
    if certOk s.ms cert then ((.ok, []), s.modMs fun m => { m with debug := true }) else ((.refused .auth, []), s)

def execDebugUnlock (cert : List Byte) (s : State) : Res := .next (debugUnlock cert s)

end Sys2Proof.Machine
end

