-- ==== Sys2Proof/Machine/Clocks.lean ====
section
/-! DEFINITION. Clock steps, REST, the reference monitor, temperature and voltage (R429 to R434, R439 to R446). -/

namespace Sys2Proof.Machine

def State.modCk (s : State) (f : Ck → Ck) : State := { s with ck := f s.ck }

/-! ### Clock steps (R432, R433) -/

/-- MS_CLK_STEP: a new step begins a hold; the step in force only takes INC. -/
def clkStep (v : Word) (s : State) : Status × State :=
  let m : BitVec 5 := BitVec.ofNat 5 (fld v 4 0)
  let inc : BitVec 40 := BitVec.ofNat 40 (fld v 47 8)
  if s.ck.hold.isSome then (.refused .busy, s)
  else if s.ck.rest then (.refused .state, s)
  else if m.toNat < 10 ∨ 16 < m.toNat then (.refused .range, s)
  else if m = s.ck.m then (.ok, s.modCk fun k => { k with stepM := m, stepInc := inc, inc })
  else (.ok, s.modCk fun k => { k with stepM := m, stepInc := inc, hold := some (m, inc) })

def execMsClkStepWrite (v : Word) (s : State) : Res := .next (s.mgmtOp 0x0000200000 (clkStep v))

/-- CLOCK_STEP_HOLD_END (R432): the clocks restart at the new step. -/
def clockStepHoldEnd (s : State) : State :=
  match s.ck.hold with
  | some (m, inc) => s.modCk fun k => { k with m, inc, hold := none, changes := k.changes + 1 }
  | none => s

def execClockStepHoldEnd (s : State) : Res := live s (.next (clockStepHoldEnd s))

/-! ### The reference monitor (R434) -/

/-- Loss of reference: CU_REFCLK_LOSS. -/
def refclkLoss (s : State) : State := s.failCode 0x0B02 3 true

/-- PLL_RELOCK_TIMEOUT (R432): the PLL has not locked by the 4,688th period of the hold. -/
def execPllRelockTimeout (s : State) : Res := live s (.next (if s.ck.hold.isSome then refclkLoss s else s))

/-- REFMON_WINDOW_END (R434): MIN starts at the first window. -/
def refmonWindowEnd (ticks : BitVec 16) (s : State) : State :=
  let s := s.modCk fun k => { k with
    refmonLast := ticks
    refmonMin := if k.refmonMin = 0 ∨ ticks.toNat < k.refmonMin.toNat then ticks else k.refmonMin }
  if ticks.toNat < 1000 then refclkLoss s else s

def execRefmonWindowEnd (ticks : BitVec 16) (s : State) : Res := .next (refmonWindowEnd ticks s)

/-- REFCLK_STALL (R434). -/
def execRefclkStall (s : State) : Res := .next (refclkLoss s)

/-- PLL_LOCK_DROP (R434): outside a hold. -/
def pllLockDrop (s : State) : State :=
  let s' := s.modCk fun k => { k with lock := false }
  if s.ck.hold.isSome then s' else refclkLoss s'

def execPllLockDrop (s : State) : Res := .next (pllLockDrop s)

/-! ### REST (R442, R443) -/

/-- MS_REST.ENTER (R442). -/
def restEnter (s : State) : Status × State :=
  if s.cores.toList.any (fun k => k.sq.st == .run || k.sq.st == .resetting) then (.refused .state, s)
  else if s.ms.loading.isSome || decide (1 ≤ s.ws.load.phase.toNat ∧ s.ws.load.phase.toNat ≤ 5) || s.ck.hold.isSome then
    (.refused .busy, s)
  else if s.ck.rest then (.ok, s)
  else (.ok, s.modCk fun k => { k with rest := true })

def execMsRestEnter (s : State) : Res := .next (s.mgmtOp 0x0000200038 restEnter)

/-- MS_REST.WAKE (R443). -/
def restWake (s : State) : Status × State :=
  if !s.ck.rest || s.ck.waking then (.refused .state, s) else (.ok, s.modCk fun k => { k with waking := true })

def execMsRestWake (s : State) : Res := .next (s.mgmtOp 0x0000200038 restWake)

/-- REST_WAKE_RESTART (R443): the quarter clocks restart, whatever the state of the package. -/
def execRestWakeRestart (s : State) : Res :=
  .next (if s.ck.waking then s.modCk fun k => { k with rest := false, waking := false } else s)

/-! ### Temperature and voltage (R440, R444) -/

/-- 125 °C in the encoding of MS_TEMP. -/
def tripTemp : Nat := 1320

/-- TEMP_SAMPLE (R444). -/
def tempSample (q0 q1 q2 q3 sad : BitVec 12) (s : State) : State :=
  let v : List Nat := [q0.toNat, q1.toNat, q2.toNat, q3.toNat, sad.toNat]
  let hot := v.any fun t => decide (fld s.ck.therm 11 0 ≤ t)
  let s := s.modCk fun k => { k with
    temp := fw 59 48 sad.toNat ||| fw 47 36 q3.toNat ||| fw 35 24 q2.toNat ||| fw 23 12 q1.toNat ||| fw 11 0 q0.toNat
    therm := if hot then setFld k.therm 13 13 1 else k.therm
    thermNow := k.thermNow || hot }
  if v.any fun t => decide (tripTemp ≤ t) then (s.msFault 0x0A0E).failCode 0x0A0E 2 true else s

def execTempSample (q0 q1 q2 q3 sad : BitVec 12) (s : State) : Res := .next (tempSample q0 q1 q2 q3 sad s)

/-- AVS_PERIOD (R439, R440): the regulator's voltage and margin at the end of a period. MV_MAX is each quarter's own (log entry
4). -/
def avsPeriod (q : BitVec 2) (mv : BitVec 16) (margin : BitVec 8) (s : State) : State :=
  let old := vget s.ck.avs q.toNat
  let w := fw 63 48 mv.toNat ||| fw 47 32 (max (fld old 47 32) mv.toNat) ||| fw 31 16 (Config.avsMax q.toNat).toNat
    ||| fw 15 8 margin.toNat
  let s := s.modCk fun k => { k with avs := vset k.avs q.toNat w }
  if margin.toInt < 0 ∧ (Config.avsMax q.toNat).toNat ≤ mv.toNat then (s.msFault 0x0A0F).failCode 0x0A0F 2 true else s

def execAvsPeriod (q : BitVec 2) (mv : BitVec 16) (margin : BitVec 8) (s : State) : Res := .next (avsPeriod q mv margin s)

end Sys2Proof.Machine
end

