-- ==== Sys2Proof/Machine/Branch.lean ====
section
/-! DEFINITION. The B slot: branches, loops, waits and tollgate arrivals (R127, R128, R132 to R136). -/

namespace Sys2Proof.Machine

/-- What the B slot makes of the program counter (R127): the next bundle, the a-cycles that follow the issue before
the next bundle may issue, and whether issue stops. -/
structure NextPc where
  pc : Nat
  idle : Nat := 0
  halt : Bool := false
deriving DecidableEq, Repr

/-- Whether bits [hi:lo] of the word are all zero. -/
def bZero (b : BitVec 56) (hi lo : Nat) : Bool := zeroFld b hi lo

/-- Fields that an instruction does not use must be zero (R132). -/
def branchRsv (op : Nat) (b : BitVec 56) : Bool :=
  match op with
  | 0x80 => !bZero b 55 13
  | 0x81 => !bZero b 45 13 || decide (5 < fld b 48 46)
  | 0x82 => !bZero b 48 13
  | 0x83 => !bZero b 48 0
  | 0x84 => !bZero b 55 46 || !bZero b 43 32
  | 0x85 => !bZero b 48 46 || !bZero b 43 0
  | 0x86 => !bZero b 55 46 || !bZero b 43 13
  | 0x88 => !bZero b 55 44 || !bZero b 34 0
  | 0x89 => !bZero b 55 32
  | 0x8A => !bZero b 55 35 || !bZero b 32 32
  | 0x8F => !bZero b 55 0
  | _ => true

/-- The condition of BRC (R133). -/
def branchTaken (cc : Nat) (v : Word) : Bool :=
  match cc with
  | 0 => v == 0
  | 1 => v != 0
  | 2 => v.slt 0
  | 3 => !v.slt 0
  | 4 => (0 : Word).slt v
  | _ => !(0 : Word).slt v

/-- The next bundle after a bundle at i whose B slot holds the word, or none (R127, R134). -/
def branchNext (s : State) (c : CoreId) (i : Nat) : Option SlotWord → NextPc
  | none => { pc := i + 1 }
  | some w =>
    let b := w.bits
    let target := fld b 12 0
    match w.opcode.toNat with
    | 0x80 => { pc := target }
    | 0x81 => if branchTaken (fld b 48 46) (readU s c (fld b 55 49)) then { pc := target, idle := 1 } else { pc := i + 1 }
    | 0x82 => { pc := target, idle := 1 }
    | 0x83 => { pc := (readU s c (fld b 55 49)).toNat, idle := 1 }
    | 0x86 =>
      let lp : BitVec 32 := (readU s c (64 + fld b 45 44)).setWidth 32
      if lp - 1 = 0 then { pc := i + 1 } else { pc := target }
    | 0x89 => { pc := i + 1, idle := fld b 31 0 }
    | 0x8F => { pc := i, halt := true }
    | _ => { pc := i + 1 }

/-- The fault of the B slot (R133 to R135), other than the range of the next bundle. `dq` is the DMA queue that the D
slot of the same bundle issues to (R135). -/
def branchFault (s : State) (c : CoreId) (op : Nat) (b : BitVec 56) (dq : Option Nat) : Option SlotFault :=
  let reg := fld b 55 49
  match op with
  | 0x80 | 0x81 | 0x82 | 0x83 | 0x84 | 0x85 | 0x86 | 0x88 | 0x89 | 0x8A | 0x8F =>
    if branchRsv op b then some (.sq 0x0102)
    else match op with
      | 0x81 | 0x83 => if regReadable reg then none else some (.sq 0x0103)
      | 0x82 => if reg < 32 then none else some (.sq 0x0103)
      | 0x84 => if fld b 31 0 = 0 then some (.sq 0x0106) else none
      | 0x85 =>
        if !regReadable reg then some (.sq 0x0103)
        else if (readU s c reg).toNat % 2 ^ 32 = 0 then some (.sq 0x0106) else none
      | 0x8A =>
        let q := fld b 34 33
        let issued := (vget (s.core c).dma.queues q).issued.toNat + (if dq = some q then 1 else 0)
        let d := (fld b 31 0 + 2 ^ 32 - issued % 2 ^ 32) % 2 ^ 32
        if 1 ≤ d ∧ d < 2 ^ 31 then some (.sq 0x0108) else none
      | _ => none
  | _ => some (.sq 0x0101)

/-- A next bundle index of 8,192 or more faults in slot B (R128, R133). -/
def pcFault (n : NextPc) : Option SlotFault := if 8192 ≤ n.pc then some (.sq 0x0105) else none

def branchReads (op : Nat) (b : BitVec 56) : List Nat :=
  match op with
  | 0x81 | 0x83 | 0x85 => [fld b 55 49]
  | 0x86 => [64 + fld b 45 44]
  | _ => []

def branchDest (op : Nat) (b : BitVec 56) : Option (Nat × Nat) :=
  match op with
  | 0x82 => some (fld b 55 49, 1)
  | 0x84 | 0x85 | 0x86 => some (64 + fld b 45 44, 1)
  | _ => none

/-- The effect of the B slot beside the program counter. -/
def branchEffect (pre : State) (c : CoreId) (op : Nat) (b : BitVec 56) (s : State) : State :=
  let i := (pre.core c).sq.pc
  let lp := 64 + fld b 45 44
  match op with
  | 0x82 => s.writeReg c (fld b 55 49) (BitVec.ofNat 64 (i.toNat + 1)) 1
  | 0x84 => s.writeReg c lp (BitVec.ofNat 64 (fld b 31 0)) 1
  | 0x85 => s.writeReg c lp (readU pre c (fld b 55 49)) 1
  | 0x86 => s.writeReg c lp (readU pre c lp - 1) 1
  | 0x88 =>
    let tg := BitVec.ofNat 8 (fld b 43 36)
    s.modSq c fun q => { q with
      tgFly := q.tgFly ++ [(tg, i)]
      release := if bit b 35 then some (tg, i) else q.release }
  | 0x8A => s.modSq c fun q => { q with waitDma := some (BitVec.ofNat 2 (fld b 34 33), BitVec.ofNat 32 (fld b 31 0)) }
  | _ => s

/-- WAIT.DMA treats count C as reached when (DONE − C) mod 2^32 is below 2^31 (R135). -/
def dmaReached (k : CoreSt) (q : BitVec 2) (count : BitVec 32) : Bool :=
  decide (((vget k.dma.queues q.toNat).done - count).toNat < 2 ^ 31)

end Sys2Proof.Machine
end

