-- ==== Sys2Proof/Machine/Scalar.lean ====
section
/-! DEFINITION. The scalar units: layouts SR, SI, SM (R129 to R131). -/

namespace Sys2Proof.Machine

/-- The three layouts of R129. -/
inductive ScalarLayout where
  | sr | si | sm
deriving DecidableEq, Repr

/-- Layout of an opcode; `none` when R130 assigns none. -/
def scalarLayout (op : Nat) : Option ScalarLayout :=
  if 0x01 ≤ op ∧ op ≤ 0x0E then some .sr
  else if 0x10 ≤ op ∧ op ≤ 0x18 then some .si
  else if op = 0x1C ∨ op = 0x1D then some .sm
  else none

/-- The immediate of layout SI, sign-extended to 64 bits. -/
def scalarImm (b : BitVec 56) : Word := (b.extractLsb' 0 32).signExtend 64

/-- The result of a scalar operation on SRC1 and SRC2 or IMM (R130). -/
def scalarAlu (op : Nat) (x y : Word) : Word :=
  let sh := y.toNat % 64
  match op with
  | 0x01 | 0x10 => x + y
  | 0x02 => x - y
  | 0x03 | 0x18 => x * y
  | 0x04 | 0x11 => x &&& y
  | 0x05 | 0x12 => x ||| y
  | 0x06 | 0x13 => x ^^^ y
  | 0x07 | 0x14 => x <<< sh
  | 0x08 | 0x15 => x >>> sh
  | 0x09 | 0x16 => x.sshiftRight sh
  | 0x0A => if x.slt y then 1 else 0
  | 0x0B => if x.ult y then 1 else 0
  | 0x0C => if x = y then 1 else 0
  | 0x0D => if y.slt x then y else x
  | 0x0E => if x.slt y then y else x
  | 0x17 => (y.extractLsb' 0 32 ++ x.extractLsb' 0 32)
  | _ => 0

/-- Latency of a result (R130). -/
def scalarLat (op : Nat) : Nat := if op = 0x03 ∨ op = 0x18 then 3 else if op = 0x1C then 4 else 1

/-- The address of LDN or STN: a[AREG] + OFF × 8, modulo 2^64 (R130, R131). -/
def narrowAddr (k : CoreSt) (b : BitVec 56) : Nat := (areg k (fld b 48 45) + fld b 19 0 * 8) % 2 ^ 64

/-- Whether a nonzero reserved field makes the word fault (R129). -/
def scalarRsv (l : ScalarLayout) (b : BitVec 56) : Bool :=
  match l with
  | .sr => !zeroFld b 34 0
  | .si => !zeroFld b 41 32
  | .sm => !zeroFld b 44 20

/-- The fault of a scalar slot at issue. -/
def scalarFault (k : CoreSt) (op : Nat) (b : BitVec 56) : Option SlotFault :=
  match scalarLayout op with
  | none => some (.sq 0x0101)
  | some l =>
    if scalarRsv l b then some (.sq 0x0102)
    else match l with
      | .sr =>
        if !regWritable (fld b 55 49) || !regReadable (fld b 48 42) || !regReadable (fld b 41 35) then some (.sq 0x0103)
        else none
      | .si => if !regWritable (fld b 55 49) || !regReadable (fld b 48 42) then some (.sq 0x0103) else none
      | .sm =>
        if (op = 0x1C ∧ !regWritable (fld b 55 49)) ∨ (op = 0x1D ∧ !regReadable (fld b 55 49)) then some (.sq 0x0103)
        else
          let a := narrowAddr k b
          if a % 8 ≠ 0 ∨ cmBytes ≤ a then some (.sq 0x0107) else none

/-- Unified registers that a scalar slot reads. -/
def scalarReads (op : Nat) (b : BitVec 56) : List Nat :=
  match scalarLayout op with
  | some .sr => [fld b 48 42, fld b 41 35]
  | some .si => [fld b 48 42]
  | some .sm => (32 + fld b 48 45) :: (if op = 0x1D then [fld b 55 49] else [])
  | none => []

/-- The register that a scalar slot writes, with its latency. -/
def scalarDest (op : Nat) (b : BitVec 56) : Option (Nat × Nat) :=
  if scalarLayout op = none ∨ op = 0x1D then none else some (fld b 55 49, scalarLat op)

/-- The core-memory access of LDN or STN in scalar slot `slot` (R131, R154, R156); STN's register is read at issue (R125). -/
def scalarAsks (s : State) (c : CoreId) (slot op : Nat) (b : BitVec 56) : List MemAsk :=
  let k := s.core c
  let t := k.sq.clk
  let a := narrowAddr k b
  let reg := BitVec.ofNat 7 (fld b 55 49)
  match op with
  | 0x1C => [{ code := slot + 1, seq := 0, rows := [a / 256], at_ := t + 1, stamps := [.reg reg (t + 4)], move := .load reg a }]
  | 0x1D => [{ code := slot + 1, seq := 0, write := true, narrow := true, rows := [a / 256], at_ := t + 1
               move := .store a (wordBytes (readU s c (fld b 55 49))) }]
  | _ => []

/-- The effect of a scalar slot: operands from the state before the bundle (R125). LDN and STN move their word when their access is
served; until then LDN's register is not available. -/
def scalarEffect (pre : State) (c : CoreId) (op : Nat) (b : BitVec 56) (s : State) : State :=
  match scalarLayout op with
  | some .sr => s.writeReg c (fld b 55 49) (scalarAlu op (readU pre c (fld b 48 42)) (readU pre c (fld b 41 35))) (scalarLat op)
  | some .si => s.writeReg c (fld b 55 49) (scalarAlu op (readU pre c (fld b 48 42)) (scalarImm b)) (scalarLat op)
  | some .sm => if op = 0x1C then s.modSq c fun q => q.await (fld b 55 49) (scalarLat op) else s
  | none => s

end Sys2Proof.Machine
end

