-- ==== Sys2Proof/Machine/Issue.lean ====
section
/-! DEFINITION. Issue of a bundle (R121 to R128, R137 to R141): the fault, the holds and the effect of each slot, and the
meaning of every slot instruction as a word of a bundle that is presented (log entry 2). -/

namespace Sys2Proof.Machine

/-! ### Slots (R121, R122) -/

/-- The opcodes that a slot accepts. -/
def slotRange (slot : Nat) : Nat × Nat :=
  match slot with
  | 0 | 1 => (0x01, 0x1F)
  | 2 => (0x80, 0x9F)
  | 3 => (0x20, 0x2F)
  | 4 => (0x40, 0x67)
  | 5 => (0x68, 0x7F)
  | 6 => (0x30, 0x3F)
  | _ => (0xA0, 0xBF)

/-- The reserved-field fault of a slot. -/
def rsvFault (slot : Nat) : SlotFault :=
  match slot with
  | 0 | 1 | 2 => .sq 0x0102
  | 3 => .me 0x0209 0
  | 4 | 5 => .ve 0x0309
  | 6 => .tm 0x0507 0
  | _ => .cq 0x060E 0

/-- Whether a slot word reaches its unit: no NOP, and its opcode in the slot's range. -/
def SlotWord.active (w : SlotWord) : Bool :=
  let (lo, hi) := slotRange w.slot.toNat
  w.opcode != 0 && decide (lo ≤ w.opcode.toNat ∧ w.opcode.toNat ≤ hi)

/-- The DMA queue that a bundle's D slot issues to. -/
def bundleQueue (ws : List SlotWord) : Option Nat :=
  match ws.find? (fun w => w.slot == 6) with
  | some w => dmaQueueOf w.opcode.toNat w.bits
  | none => none

/-- The fault of a matrix-engine word of the M slot, or of an LDS word of the D slot (R75, R90). -/
def meFault (k : CoreSt) (c : CoreId) (op : Nat) (b : BitVec 56) : Option SlotFault :=
  match op with
  | 0x21 => streamFault k b
  | 0x22 => listFault k b
  | 0x23 => if b = 0 then none else some (.me 0x0209 0)
  | 0x24 => ldtdFault k b
  | 0x31 => ldsFault k c .wstream b
  | 0x32 => ldsFault k c .cm b
  | _ => some (.me 0x0209 0)

/-- The fault of a slot at issue, other than SQ_DUAL_WRITE and SQ_PC_RANGE. -/
def slotFault (s : State) (c : CoreId) (ws : List SlotWord) (w : SlotWord) : Option SlotFault :=
  let k := s.core c
  let op := w.opcode.toNat
  if op = 0 then (if w.bits = 0 then none else some (rsvFault w.slot.toNat))
  else if !w.active then some (.sq 0x0101)
  else match w.slot.toNat with
    | 0 | 1 => scalarFault k op w.bits
    | 2 => branchFault s c op w.bits (bundleQueue ws)
    | 3 => meFault k c op w.bits
    | 4 | 5 => vectorFault s c op w.bits
    | 6 => if op = 0x31 ∨ op = 0x32 then meFault k c op w.bits else dmaFault k op w.bits
    | _ => channelFault s c op w.bits

/-- Unified registers that a matrix-engine or LDS word reads. -/
def meReads (op : Nat) (b : BitVec 56) : List Nat :=
  match op with
  | 0x21 => (if bit b 16 then [32 + fld b 15 12] else []) ++ [48 + fld b 11 9, 56 + fld b 8 6]
  | 0x22 => [32 + fld b 51 48, 56 + fld b 34 32]
  | 0x24 => [32 + fld b 55 52]
  | 0x31 | 0x32 => (32 + fld b 55 52) :: (if bit b 31 then [32 + fld b 30 27] else [])
  | _ => []

/-- Unified registers that a slot reads. -/
def SlotWord.reads (w : SlotWord) : List Nat :=
  let op := w.opcode.toNat
  if !w.active then []
  else match w.slot.toNat with
    | 0 | 1 => scalarReads op w.bits
    | 2 => branchReads op w.bits
    | 3 => meReads op w.bits
    | 4 | 5 => vectorReads op w.bits
    | 6 => if op = 0x31 ∨ op = 0x32 then meReads op w.bits else dmaReads op w.bits
    | _ => channelReads op w.bits

/-- The register that a slot writes, with its latency (R125). -/
def SlotWord.dest (w : SlotWord) : Option (Nat × Nat) :=
  let op := w.opcode.toNat
  if !w.active then none
  else match w.slot.toNat with
    | 0 | 1 => scalarDest op w.bits
    | 2 => branchDest op w.bits
    | 4 | 5 => vectorDest op w.bits
    | 7 => channelDest op w.bits
    | _ => none

/-! ### Holds (R137, R138, R141) -/

/-- The a-cycle at which a register's last write is available. -/
def availAt (k : CoreSt) (n : Nat) : Nat :=
  match k.sq.avail.find? (fun e => e.1.toNat == n) with
  | some e => e.2
  | none => 0

/-- Register holds of a slot: an operand not yet available, or a write that would not land after an earlier one (R137,
log entry 105). -/
def regHolds (k : CoreSt) (w : SlotWord) : List Cause :=
  let vec := w.slot == 4 || w.slot == 5
  (if w.reads.any (fun n => decide (k.sq.clk < availAt k n)) then [if vec then Cause.veScalar else .scalar] else [])
    ++ (match w.dest with
        | some (n, lat) => if k.sq.clk < availAt k n ∧ k.sq.clk + lat ≤ availAt k n then [.scalar] else []
        | none => [])

/-- Holds of a slot's unit. -/
def unitHolds (s : State) (c : CoreId) (w : SlotWord) : List Cause :=
  let k := s.core c
  let op := w.opcode.toNat
  if !w.active then []
  else match w.slot.toNat with
    | 3 => meHolds k op w.bits
    | 4 | 5 => veHolds s c op w.bits
    | 6 => meHolds k op w.bits ++ dmaHolds k op w.bits
    | 7 => match channelHold k op w.bits with
      | some h => [h.cause]
      | none => []
    | _ => []

/-- Whether a slot starts a heavy unit (R138). -/
def SlotWord.heavy (w : SlotWord) : Bool :=
  (w.slot == 3 && (w.opcode == 0x21 || w.opcode == 0x22)) || (w.slot == 6 && w.opcode == 0x31)

/-- Holds of the bundle as a whole: a release wait (R136), a WAIT.DMA count (R135), an overlay (R141), the rein (R138). -/
def bundleHolds (s : State) (c : CoreId) (ws : List SlotWord) : List Cause :=
  let k := s.core c
  let n := (ws.filter SlotWord.heavy).length
  (if k.sq.release.isSome then [Cause.release] else [])
    ++ (match k.sq.waitDma with
        | some (q, count) => if dmaReached k q count then [] else [.queue]
        | none => [])
    ++ (if bit k.sq.imemPend (k.sq.pc.toNat / 128) then [.imem] else [])
    ++ (if 0 < n ∧ s.reinLimit.toNat < heavyUnits s (quarterOf c) (k.sq.clk + 1) + n then [.rein] else [])

/-! ### Faults of a bundle (R125, R126, R128) -/

/-- Whether another slot writes the register that a slot writes. -/
def dualWrite (ws : List SlotWord) (w : SlotWord) : Bool :=
  match w.dest with
  | some (n, _) => ws.any fun v => v.slot != w.slot && (match v.dest with
      | some (m, _) => m == n
      | none => false)
  | none => false

/-- The word of the B slot, when the slot does anything. -/
def branchWord (ws : List SlotWord) : Option SlotWord := ws.find? fun w => w.slot == 2 && w.active

/-- Every slot's fault at issue, lowest slot first, with its opcode. Of several of one S or B slot word, the reserved field comes first, then
the register, the address or count, the dual write and the range of the next bundle (DESIGN CHOICE, log entry 108). -/
def bundleFaults (s : State) (c : CoreId) (ws : List SlotWord) : List (Nat × Nat × SlotFault) :=
  let pc := (s.core c).sq.pc.toNat
  (List.range 8).filterMap fun i =>
    let w : SlotWord := match ws.find? (fun w => w.slot.toNat == i) with
      | some w => w
      | none => { slot := BitVec.ofNat 3 i, opcode := 0, bits := 0 }
    let f := match slotFault s c ws w with
      | some f => some f
      | none =>
        if dualWrite ws w then some (.sq 0x0104)
        else if i = 2 then pcFault (branchNext s c pc (branchWord ws))
        else none
    f.map fun f => (i, w.opcode.toNat, f)

/-! ### Effects -/

/-- What a slot does in its issue a-cycle, on operands of the state before the bundle (R125). -/
def slotEffect (pre : State) (c : CoreId) (w : SlotWord) (s : State) : State :=
  let op := w.opcode.toNat
  let k := pre.core c
  if !w.active then s
  else match w.slot.toNat with
    | 0 | 1 => scalarEffect pre c op w.bits s
    | 2 => branchEffect pre c op w.bits s
    | 3 => match op with
      | 0x21 => s.modCore c (streamEffect k w.bits)
      | 0x22 => s.modCore c (listEffect k w.bits)
      | 0x23 => s.modCore c swapEffect
      | 0x24 => s.modCore c (ldtdEffect w.bits)
      | _ => s
    | 4 | 5 => vectorEffect pre c op w.bits s
    | 6 => match op with
      | 0x31 => s.modCore c (ldsEffect k .wstream w.bits)
      | 0x32 => s.modCore c (ldsEffect k .cm w.bits)
      | _ => dmaEffect k c op w.bits s
    | _ => channelEffect pre c op w.bits s

/-- What the C slot does in the a-cycle after issue. -/
def slotLate (pre : State) (c : CoreId) (w : SlotWord) (s : State) : State :=
  if w.active ∧ w.slot = 7 then channelLate pre c w.opcode.toNat w.bits s else s

/-- The core-memory and column-port accesses of a slot word (R156, R177). -/
def slotAsks (s : State) (c : CoreId) (w : SlotWord) : List MemAsk :=
  let op := w.opcode.toNat
  let k := s.core c
  if !w.active then []
  else match w.slot.toNat with
    | 0 | 1 => scalarAsks s c w.slot.toNat op w.bits
    | 3 => matrixAsks k op w.bits
    | 5 => moveAsks k op w.bits
    | 6 => match op with
      | 0x31 => ldsAsks k .wstream w.bits
      | 0x32 => ldsAsks k .cm w.bits
      | _ => []
    | 7 => channelAsks s c op w.bits
    | _ => []

/-- The effects of a bundle's slots, lowest first, and their accesses (R125, R156). -/
def bundleEffects (pre : State) (c : CoreId) (ws : List SlotWord) (s : State) : State :=
  let s := (List.range 8).foldl (fun s i =>
    (ws.filter fun w => w.slot.toNat == i).foldl (fun s w => slotEffect pre c w s) s) s
  ws.foldl (fun s w => s.ask c (slotAsks pre c w)) s

/-- The bundle leaves the sequencer: nothing waits. -/
def CoreSt.dispatched (k : CoreSt) : CoreSt :=
  noteHold { k with sq := { k.sq with holds := 0, waitDma := none, bundle := [], waiting := false } } none

/-- The next bundle to issue, after the a-cycle of issue; with HALT the core is DONE (R127, R143). -/
def CoreSt.advanceTo (k : CoreSt) (n : NextPc) : CoreSt :=
  { k with sq := { k.sq with pc := BitVec.ofNat 13 n.pc, st := if n.halt ∧ k.sq.st = .run then .done else k.sq.st } }

/-- A bundle issues (R124, R127, R140, R148). -/
def issueBundle (s : State) (c : CoreId) (ws : List SlotWord) : State :=
  let n := branchNext s c (s.core c).sq.pc.toNat (branchWord ws)
  let t := ((bundleEffects s c ws (s.modCore c CoreSt.dispatched)).pass c 1).modCore c (·.advanceTo n)
  (ws.foldl (fun t w => slotLate s c w t) t).pass c n.idle

/-- A bundle with faults takes no effect; the lowest slot's fault is recorded, each unit records its own (R126, R148,
R150). -/
def faultBundle (s : State) (c : CoreId) (fs : List (Nat × Nat × SlotFault)) : State :=
  let pc := (s.core c).sq.pc.toNat
  let s := fs.foldl (fun s f => s.unitFault c f.2.1 pc f.2.2) s
  match fs with
  | [] => s
  | (i, _, f) :: _ => ((s.modCore c (noteHold · none)).raise c f.code i pc).pass c 1

/-- The bundle is held for an a-cycle: it stays with the sequencer, which evaluates it again in the next one (R124). -/
def holdBundle (s : State) (c : CoreId) (ws : List SlotWord) (h : Option CqHold) (causes : List Cause) : State :=
  (s.modCore c fun k =>
    let k := (noteHold k h).hold causes
    { k with sq := { k.sq with bundle := ws, waiting := true } }).pass c 1

/-- The scoreboard's decision on the bundle presented (R124, R137). A fault is raised at issue: a word of the M or D slot waits for
its path or queue first (R61, R74, R181), whatever it holds; a word of a vector slot or of the C slot that its unit faults waits for
nothing, as R108 says of DRAIN, and one that only shares its destination waits (log entry 45). -/
def present (s : State) (c : CoreId) (ws : List SlotWord) : State :=
  let fs := bundleFaults s c ws
  let sound (w : SlotWord) : Bool := !fs.any fun f => f.1 == w.slot.toNat && f.2.2 != .sq 0x0104
  let queued (w : SlotWord) : Bool := sound w || w.slot == 3 || w.slot == 6
  let s := if fs.isEmpty then
      ws.foldl (fun s w => if w.active ∧ w.slot = 7 then channelPad s c w.opcode.toNat w.bits else s) s
    else s
  let k := s.core c
  let hold := ws.findSome? fun w =>
    if sound w ∧ w.active ∧ w.slot = 7 then (channelHold k w.opcode.toNat w.bits).map fun h => (h, cIdx w.opcode.toNat w.bits) else none
  let causes := bundleHolds s c ws ++ ws.flatMap (regHolds k) ++ (ws.filter queued).flatMap (unitHolds s c)
  match hold.filter fun h => holdExpired k h.1 with
  | some h => (creditTimeout s c h.2).pass c 1
  | none =>
    if !causes.isEmpty then holdBundle s c ws (hold.map (·.1)) causes.eraseDups
    else checked s .imem c (64 * k.sq.pc.toNat) (64 * k.sq.pc.toNat + 64) fun s =>
      if fs.isEmpty then issueBundle s c ws else faultBundle s c fs

/-- Words of the bundle that is being presented, a word with them: of one slot the last sent counts. -/
def Sq.joined (q : Sq) (w : SlotWord) : List SlotWord := (q.bundle.filter fun x => x.slot != w.slot) ++ [w]

/-- A slot word is presented (log entry 2): it joins the words of its bundle, and the last one presents the bundle to the
sequencer. While the core is not in RUN, or its clocks stand in a step hold (R432), nothing is presented; while a replay freezes it
(R84), the bundle waits. -/
def presentWord (op : BitVec 8) (i : Issue) (s : State) : State :=
  let c := i.core
  let q := (s.core c).sq
  if q.st ≠ .run ∨ s.ck.hold.isSome then s
  else
    let ws := q.joined { slot := i.slot, opcode := op, bits := i.bits }
    if !i.last then s.modSq c fun q => { q with bundle := ws }
    else if (s.core c).frozen then s.modSq c fun q => { q with bundle := ws, waiting := true }
    else present s c ws

/-- A bundle that waits is evaluated in an a-cycle in which no word is sent (R124). -/
def representBundle (s : State) (c : CoreId) : State :=
  let k := s.core c
  if k.sq.waiting && k.sq.st == .run && !k.frozen then present s c k.sq.bundle else s.pass c 1

/-- The meaning of a slot instruction: a fused-off core has no sequencer (R19). -/
def issue (op : BitVec 8) (i : Issue) (s : State) : Res :=
  if s.fusedOff i.core then .fault (.absentCore i.core) else live s (.next (presentWord op i s))

/-! ### One meaning for each slot instruction -/

/-- NOP (R122), opcode 0x00. -/
def execNop (i : Issue) (s : State) : Res := issue 0x00 i s
/-- ADD (R130), opcode 0x01. -/
def execAdd (i : Issue) (s : State) : Res := issue 0x01 i s
/-- SUB (R130), opcode 0x02. -/
def execSub (i : Issue) (s : State) : Res := issue 0x02 i s
/-- MUL (R130), opcode 0x03. -/
def execMul (i : Issue) (s : State) : Res := issue 0x03 i s
/-- AND (R130), opcode 0x04. -/
def execAndOp (i : Issue) (s : State) : Res := issue 0x04 i s
/-- OR (R130), opcode 0x05. -/
def execOrOp (i : Issue) (s : State) : Res := issue 0x05 i s
/-- XOR (R130), opcode 0x06. -/
def execXorOp (i : Issue) (s : State) : Res := issue 0x06 i s
/-- SHL (R130), opcode 0x07. -/
def execShl (i : Issue) (s : State) : Res := issue 0x07 i s
/-- SHR (R130), opcode 0x08. -/
def execShr (i : Issue) (s : State) : Res := issue 0x08 i s
/-- SAR (R130), opcode 0x09. -/
def execSar (i : Issue) (s : State) : Res := issue 0x09 i s
/-- SLT (R130), opcode 0x0A. -/
def execSlt (i : Issue) (s : State) : Res := issue 0x0A i s
/-- SLTU (R130), opcode 0x0B. -/
def execSltu (i : Issue) (s : State) : Res := issue 0x0B i s
/-- SEQ (R130), opcode 0x0C. -/
def execSeq (i : Issue) (s : State) : Res := issue 0x0C i s
/-- MIN (R130), opcode 0x0D. -/
def execMinOp (i : Issue) (s : State) : Res := issue 0x0D i s
/-- MAX (R130), opcode 0x0E. -/
def execMaxOp (i : Issue) (s : State) : Res := issue 0x0E i s
/-- ADDI (R130), opcode 0x10. -/
def execAddi (i : Issue) (s : State) : Res := issue 0x10 i s
/-- ANDI (R130), opcode 0x11. -/
def execAndi (i : Issue) (s : State) : Res := issue 0x11 i s
/-- ORI (R130), opcode 0x12. -/
def execOri (i : Issue) (s : State) : Res := issue 0x12 i s
/-- XORI (R130), opcode 0x13. -/
def execXori (i : Issue) (s : State) : Res := issue 0x13 i s
/-- SHLI (R130), opcode 0x14. -/
def execShli (i : Issue) (s : State) : Res := issue 0x14 i s
/-- SHRI (R130), opcode 0x15. -/
def execShri (i : Issue) (s : State) : Res := issue 0x15 i s
/-- SARI (R130), opcode 0x16. -/
def execSari (i : Issue) (s : State) : Res := issue 0x16 i s
/-- LUI (R130), opcode 0x17. -/
def execLui (i : Issue) (s : State) : Res := issue 0x17 i s
/-- MULI (R130), opcode 0x18. -/
def execMuli (i : Issue) (s : State) : Res := issue 0x18 i s
/-- LDN (R131), opcode 0x1C. -/
def execLdn (i : Issue) (s : State) : Res := issue 0x1C i s
/-- STN (R131), opcode 0x1D. -/
def execStn (i : Issue) (s : State) : Res := issue 0x1D i s
/-- BR (R133), opcode 0x80. -/
def execBr (i : Issue) (s : State) : Res := issue 0x80 i s
/-- BRC (R127), opcode 0x81. -/
def execBrc (i : Issue) (s : State) : Res := issue 0x81 i s
/-- BRL (R133), opcode 0x82. -/
def execBrl (i : Issue) (s : State) : Res := issue 0x82 i s
/-- RET (R133), opcode 0x83. -/
def execRet (i : Issue) (s : State) : Res := issue 0x83 i s
/-- LP_SET (R134), opcode 0x84. -/
def execLpSet (i : Issue) (s : State) : Res := issue 0x84 i s
/-- LP_SETR (R134), opcode 0x85. -/
def execLpSetr (i : Issue) (s : State) : Res := issue 0x85 i s
/-- LP_BR (R134), opcode 0x86. -/
def execLpBr (i : Issue) (s : State) : Res := issue 0x86 i s
/-- TG_ARRIVE (R136), opcode 0x88. -/
def execTgArrive (i : Issue) (s : State) : Res := issue 0x88 i s
/-- WAIT (R127), opcode 0x89. -/
def execWait (i : Issue) (s : State) : Res := issue 0x89 i s
/-- WAIT_DMA (R135), opcode 0x8A. -/
def execWaitDma (i : Issue) (s : State) : Res := issue 0x8A i s
/-- HALT (R143), opcode 0x8F. -/
def execHalt (i : Issue) (s : State) : Res := issue 0x8F i s
/-- LDS_WSTREAM (R57), opcode 0x31. -/
def execLdsWstream (i : Issue) (s : State) : Res := issue 0x31 i s
/-- LDS_CM (R58), opcode 0x32. -/
def execLdsCm (i : Issue) (s : State) : Res := issue 0x32 i s
/-- SWAP (R62), opcode 0x23. -/
def execSwap (i : Issue) (s : State) : Res := issue 0x23 i s
/-- MMA_LDTD (R66), opcode 0x24. -/
def execMmaLdtd (i : Issue) (s : State) : Res := issue 0x24 i s
/-- MMA_STREAM (R68), opcode 0x21. -/
def execMmaStream (i : Issue) (s : State) : Res := issue 0x21 i s
/-- MMA_LIST (R71), opcode 0x22. -/
def execMmaList (i : Issue) (s : State) : Res := issue 0x22 i s
/-- VADD_F32 (R98), opcode 0x40. -/
def execVaddF32 (i : Issue) (s : State) : Res := issue 0x40 i s
/-- VSUB_F32 (R98), opcode 0x41. -/
def execVsubF32 (i : Issue) (s : State) : Res := issue 0x41 i s
/-- VMUL_F32 (R98), opcode 0x42. -/
def execVmulF32 (i : Issue) (s : State) : Res := issue 0x42 i s
/-- VFMA_F32 (R98), opcode 0x43. -/
def execVfmaF32 (i : Issue) (s : State) : Res := issue 0x43 i s
/-- VMAX_F32 (R98), opcode 0x44. -/
def execVmaxF32 (i : Issue) (s : State) : Res := issue 0x44 i s
/-- VMIN_F32 (R98), opcode 0x45. -/
def execVminF32 (i : Issue) (s : State) : Res := issue 0x45 i s
/-- VADD_BF16 (R98), opcode 0x48. -/
def execVaddBf16 (i : Issue) (s : State) : Res := issue 0x48 i s
/-- VSUB_BF16 (R98), opcode 0x49. -/
def execVsubBf16 (i : Issue) (s : State) : Res := issue 0x49 i s
/-- VMUL_BF16 (R98), opcode 0x4A. -/
def execVmulBf16 (i : Issue) (s : State) : Res := issue 0x4A i s
/-- VFMA_BF16 (R98), opcode 0x4B. -/
def execVfmaBf16 (i : Issue) (s : State) : Res := issue 0x4B i s
/-- VMAX_BF16 (R98), opcode 0x4C. -/
def execVmaxBf16 (i : Issue) (s : State) : Res := issue 0x4C i s
/-- VMIN_BF16 (R98), opcode 0x4D. -/
def execVminBf16 (i : Issue) (s : State) : Res := issue 0x4D i s
/-- VADD_I32 (R97), opcode 0x50. -/
def execVaddI32 (i : Issue) (s : State) : Res := issue 0x50 i s
/-- VSUB_I32 (R97), opcode 0x51. -/
def execVsubI32 (i : Issue) (s : State) : Res := issue 0x51 i s
/-- VMUL_I32 (R97), opcode 0x52. -/
def execVmulI32 (i : Issue) (s : State) : Res := issue 0x52 i s
/-- VAND (R97), opcode 0x53. -/
def execVand (i : Issue) (s : State) : Res := issue 0x53 i s
/-- VOR (R97), opcode 0x54. -/
def execVor (i : Issue) (s : State) : Res := issue 0x54 i s
/-- VXOR (R97), opcode 0x55. -/
def execVxor (i : Issue) (s : State) : Res := issue 0x55 i s
/-- VSHL_I32 (R97), opcode 0x56. -/
def execVshlI32 (i : Issue) (s : State) : Res := issue 0x56 i s
/-- VSHR_I32 (R97), opcode 0x57. -/
def execVshrI32 (i : Issue) (s : State) : Res := issue 0x57 i s
/-- VMAX_I32 (R97), opcode 0x58. -/
def execVmaxI32 (i : Issue) (s : State) : Res := issue 0x58 i s
/-- VMIN_I32 (R97), opcode 0x59. -/
def execVminI32 (i : Issue) (s : State) : Res := issue 0x59 i s
/-- VCMPLT_I32 (R97), opcode 0x5B. -/
def execVcmpltI32 (i : Issue) (s : State) : Res := issue 0x5B i s
/-- VCMPLT_F32 (R97), opcode 0x5C. -/
def execVcmpltF32 (i : Issue) (s : State) : Res := issue 0x5C i s
/-- VCMPLE_F32 (R97), opcode 0x5D. -/
def execVcmpleF32 (i : Issue) (s : State) : Res := issue 0x5D i s
/-- VCMPEQ_F32 (R97), opcode 0x5E. -/
def execVcmpeqF32 (i : Issue) (s : State) : Res := issue 0x5E i s
/-- VSEL (R97), opcode 0x5F. -/
def execVsel (i : Issue) (s : State) : Res := issue 0x5F i s
/-- VCVT (R102), opcode 0x60. -/
def execVcvt (i : Issue) (s : State) : Res := issue 0x60 i s
/-- VWADD (R104), opcode 0x61. -/
def execVwadd (i : Issue) (s : State) : Res := issue 0x61 i s
/-- VWADDF (R104), opcode 0x62. -/
def execVwaddf (i : Issue) (s : State) : Res := issue 0x62 i s
/-- VWREBASE (R104), opcode 0x63. -/
def execVwrebase (i : Issue) (s : State) : Res := issue 0x63 i s
/-- VWCVT (R104), opcode 0x66. -/
def execVwcvt (i : Issue) (s : State) : Res := issue 0x66 i s
/-- VQMX (R103), opcode 0x64. -/
def execVqmx (i : Issue) (s : State) : Res := issue 0x64 i s
/-- VDQMX (R103), opcode 0x65. -/
def execVdqmx (i : Issue) (s : State) : Res := issue 0x65 i s
/-- VEXP2 (R99), opcode 0x68. -/
def execVexp2 (i : Issue) (s : State) : Res := issue 0x68 i s
/-- VLOG2 (R99), opcode 0x69. -/
def execVlog2 (i : Issue) (s : State) : Res := issue 0x69 i s
/-- VRCP (R99), opcode 0x6A. -/
def execVrcp (i : Issue) (s : State) : Res := issue 0x6A i s
/-- VRSQRT (R99), opcode 0x6B. -/
def execVrsqrt (i : Issue) (s : State) : Res := issue 0x6B i s
/-- VTANH (R99), opcode 0x6C. -/
def execVtanh (i : Issue) (s : State) : Res := issue 0x6C i s
/-- VSIGM (R99), opcode 0x6D. -/
def execVsigm (i : Issue) (s : State) : Res := issue 0x6D i s
/-- VSHUF_BFLY (R100), opcode 0x70. -/
def execVshufBfly (i : Issue) (s : State) : Res := issue 0x70 i s
/-- VSHUF_ROT (R100), opcode 0x71. -/
def execVshufRot (i : Issue) (s : State) : Res := issue 0x71 i s
/-- VSHUF_BCAST (R100), opcode 0x72. -/
def execVshufBcast (i : Issue) (s : State) : Res := issue 0x72 i s
/-- VSHUF_SHUP (R100), opcode 0x73. -/
def execVshufShup (i : Issue) (s : State) : Res := issue 0x73 i s
/-- VRAND (R112), opcode 0x74. -/
def execVrand (i : Issue) (s : State) : Res := issue 0x74 i s
/-- VXS (R101), opcode 0x76. -/
def execVxs (i : Issue) (s : State) : Res := issue 0x76 i s
/-- DRAIN (R106), opcode 0x78. -/
def execDrain (i : Issue) (s : State) : Res := issue 0x78 i s
/-- VLD (R116), opcode 0x7C. -/
def execVld (i : Issue) (s : State) : Res := issue 0x7C i s
/-- VST (R116), opcode 0x7D. -/
def execVst (i : Issue) (s : State) : Res := issue 0x7D i s
/-- DMA_COPY (R185), opcode 0x33. -/
def execDmaCopy (i : Issue) (s : State) : Res := issue 0x33 i s
/-- DMA_GATHER (R188), opcode 0x34. -/
def execDmaGather (i : Issue) (s : State) : Res := issue 0x34 i s
/-- DMA_PAGED (R196), opcode 0x35. -/
def execDmaPaged (i : Issue) (s : State) : Res := issue 0x35 i s
/-- CH_OPEN (R225), opcode 0xA0. -/
def execChOpen (i : Issue) (s : State) : Res := issue 0xA0 i s
/-- CH_ACCEPT (R224), opcode 0xA1. -/
def execChAccept (i : Issue) (s : State) : Res := issue 0xA1 i s
/-- CH_SEND (R233), opcode 0xA2. -/
def execChSend (i : Issue) (s : State) : Res := issue 0xA2 i s
/-- CH_ACK (R236), opcode 0xA3. -/
def execChAck (i : Issue) (s : State) : Res := issue 0xA3 i s
/-- CH_READ (R235), opcode 0xA4. -/
def execChRead (i : Issue) (s : State) : Res := issue 0xA4 i s
/-- CH_CLOSE (R227), opcode 0xA5. -/
def execChClose (i : Issue) (s : State) : Res := issue 0xA5 i s
/-- CH_STAT (R237), opcode 0xA6. -/
def execChStat (i : Issue) (s : State) : Res := issue 0xA6 i s
/-- CQ_OPEN (R242), opcode 0xA8. -/
def execCqOpen (i : Issue) (s : State) : Res := issue 0xA8 i s
/-- CQ_CLOSE (R247), opcode 0xA9. -/
def execCqClose (i : Issue) (s : State) : Res := issue 0xA9 i s
/-- CQ_JOIN (R243), opcode 0xAA. -/
def execCqJoin (i : Issue) (s : State) : Res := issue 0xAA i s
/-- CQ_LEAVE (R247), opcode 0xAB. -/
def execCqLeave (i : Issue) (s : State) : Res := issue 0xAB i s
/-- CQ_CONTRIB (R244), opcode 0xAC. -/
def execCqContrib (i : Issue) (s : State) : Res := issue 0xAC i s
/-- CQ_MPSET (R223), opcode 0xAD. -/
def execCqMpset (i : Issue) (s : State) : Res := issue 0xAD i s

end Sys2Proof.Machine
end

