-- ==== Sys2Proof/Machine/Program.lean ====
section
/-! DEFINITION. Program load and the host's choice after a PROGRAM fault (R284, R290, R385, R422). -/

namespace Sys2Proof.Machine

/-- The part's fingerprint fields (R283). -/
def Part.grade (p : Part) : Nat := if p.is224 then 1 else 0
def Part.stepping (p : Part) : Nat := if p.isA1 then 0 else 1

/-- The groups of CM_ASYNC_MASK (R160), as bits. -/
def asyncGroups (s : State) : Nat :=
  let m := (vget s.cores 0).cm.asyncMask
  ((List.range 8).map fun g => if bit m (4 * g) then 2 ^ g else 0).foldl (· + ·) 0

/-- Whether a fingerprint is of the other stepping or latency-table version (R284). -/
def crossPart (s : State) (f : Word) : Bool := fld f 55 52 != s.part.stepping || fld f 51 44 != 1

/-- Whether the loader refuses a fingerprint (R284). -/
def targetRefused (s : State) (f : Word) : Bool :=
  fld f 63 60 != 1 || fld f 59 56 != s.part.grade || fld f 43 36 != asyncGroups s
    || (crossPart s f && !allowCross s.ms.record)

/-! ### Windows and placement (R292, R299, R313, R385) -/

/-- Whether pages [a, a + n) and [b, b + n) of two tiers overlap. -/
def pagesMeet (t a u b n : Nat) : Bool := t == u && decide (a < b + n) && decide (b < a + n)

/-- Whether a TM_WIN word's pages stay within their column-tiers and its copies apart (R313). -/
def windowOk (w : Word) : Bool :=
  let n := fld w 44 34
  !bit w 63 || (decide (1 ≤ n ∧ fld w 54 45 + n ≤ 1024)
    && (!bit w 62 || (decide (fld w 30 21 + n ≤ 1024) && !pagesMeet (fld w 57 55) (fld w 54 45) (fld w 33 31) (fld w 30 21) n)))

/-- Whether a page of a tier lies in copy 0 of a window of a set. -/
def inWindow (w : Word) (set tier page : Nat) : Bool :=
  bit w 63 && fld w 61 58 == set && fld w 57 55 == tier && decide (fld w 54 45 ≤ page ∧ page < fld w 54 45 + fld w 44 34)

/-- First byte and length of a placement entry. -/
def placementBytes (e : Placement) : Nat := 1024 * (e.len1.toNat + 1)

/-- Whether a placement entry stays in one column-tier and in the windows of its set (R299). -/
def placementOk (x : ProgSections) (e : Placement) : Bool :=
  let off := taOffset e.ta.toNat
  let pages := (List.range ((off + placementBytes e + 49151) / 49152 - off / 49152)).map fun i => off / 49152 + i
  decide (off + placementBytes e ≤ tierBytes) && e.ta.toNat % 1024 == 0 && decide (e.off.toNat + e.len1.toNat + 1 ≤ 4096)
    && pages.all fun p => x.windows.any fun w =>
        w.1.toNat == taColumn e.ta.toNat && inWindow w.2.2 e.set.toNat (e.ta.toNat / 2 ^ 26 % 8) p

/-- Whether two placement entries write the same bytes. -/
def placementMeet (a b : Placement) : Bool :=
  decide (a.ta.toNat < b.ta.toNat + placementBytes b) && decide (b.ta.toNat < a.ta.toNat + placementBytes a)

/-- No two entries of a table meet. -/
def placementApart : List Placement → Bool
  | [] => true
  | e :: es => !es.any (placementMeet e) && placementApart es

/-- Copy-1 pages of the DUAL sets (R292). -/
def dualPages (x : ProgSections) : Nat :=
  ((x.windows.filter fun w => bit w.2.2 63 && bit w.2.2 62).map fun w => fld w.2.2 44 34).foldl (· + ·) 0

/-- The checks of R422 before the chunks are read, in order: the reason of the first that fails. -/
def programReason (s : State) (b : ProgBundle) (limit : Nat) : Option Nat :=
  match b.fetched with
  | none => some 2
  | some f =>
    let key := keyAt f.header 160
    if !headerOk 1 f.header (some limit) || f.manifest.length != recFld f.header 16 4 || !manifestOk 1 f.header f.manifest then
      some 1
    else if sha384 (keyBytes key) ≠ s.ms.owner then some 3
    else if !ecdsaVerify key f.manifest (sigAt f.header 64) then some 4
    else if targetRefused s b.fingerprint then some 5
    else match b.sections.lookup s.svc with
      | none => some 6
      | some x =>
        if x.poolLo.toNat < x.partnerHi.toNat ∧ x.partnerLo.toNat < x.poolHi.toNat then some 7
        else if dualReserve s.ms.record < dualPages x then some 8
        else if !((placementEntries x).all (placementOk x) && placementApart (placementEntries x) && x.windows.all fun w => windowOk w.2.2) then some 9
        else none

/-! ### The load (R422) -/

/-- MS_LOAD at completion. -/
def loadWord (s : State) (st reason : Nat) (cross low free : Bool) : Word :=
  fw 63 61 st ||| fw 60 53 reason ||| fw 52 52 (if cross then 1 else 0) ||| fw 51 51 (if low then 1 else 0)
    ||| fw 50 50 (if free then 1 else 0) ||| fw 31 0 s.now.toNat

/-- The program measurement of a bundle (R421). -/
def programMeasurement (b : ProgBundle) : List Byte :=
  match b.fetched with
  | some f => sha384 f.manifest
  | none => []

/-- The load ends with a reason (R422, R428): every core is IDLE, and the host is told. -/
def failProgram (s : State) (b : ProgBundle) (reason : Nat) : State :=
  let code := if reason = 5 then 0x0A08 else 0x0A09
  let w := loadWord s 3 reason false false false
  let s : State := { s.msFault code with cores := s.cores.map fun k => { k with sq := { k.sq with st := .idle } } }
  let s := s.modMs fun m => { m with load := w, loading := none, writing := false }
  (s.loadReport (slice (programMeasurement b) 0 48) true reason).faultReport code w

/-- Whether a program load must wait (R422). -/
def loadBusy (s : State) : Bool :=
  s.cores.toList.any (fun k => k.sq.st == .run || k.sq.st == .resetting) || s.ws.load.running || s.ms.loading.isSome

/-- The load of a bundle begins (R422): header and manifest are checked, and the chunks are read. -/
def beginProgram (s : State) (b : ProgBundle) (src : BundleSrc) : State :=
  match programReason s b src.length.toNat with
  | some r => failProgram s b r
  | none => s.modMs fun m => { m with load := fw 63 61 1, loading := some b, loadSrc := src }

/-- PROG_LOAD (R422). At a spare that reads its program itself the row brings what its RDMA READ has brought, and answers no message
(R396, log entry 95). -/
def progLoad (k : Kdmp) (b : ProgBundle) (s : State) : State :=
  if s.ms.ownLoad && !s.cu.failstop then beginProgram (s.modMs fun m => { m with ownLoad := false }) b s.ms.loadSrc
  else liveRequest 0x30 k s fun s =>
    if loadBusy s then ((.refused .busy, []), s)
    else ((.ok, []), beginProgram s b {
      raddr := BitVec.ofNat 64 (recFld k.msg 36 8), rkey := BitVec.ofNat 32 (recFld k.msg 44 4)
      length := BitVec.ofNat 64 (recFld k.msg 48 8) })

def execProgLoad (k : Kdmp) (b : ProgBundle) (s : State) : Res := .next (progLoad k b s)

/-- A core image is written (R422). -/
def writeImage (s : State) (i : CoreImage) : State :=
  if s.fusedOff i.core then s
  else s.modCore i.core fun k => { k with
    sq := (i.regs.foldl (fun (q : Sq) r => q.writeU r.1.toNat r.2) { k.sq with
      startPc := i.pc, imem := i.bundles.foldl (fun m b => Mem.write m (64 * b.1.toNat) (slice b.2 0 64)) k.sq.imem })
    cm := { k.cm with mem := i.cm.foldl (fun m x => Mem.write m x.1.toNat x.2) k.cm.mem } }

/-- Four register words. -/
def words4 (l : List Word) : Vector Word 4 := Vector.ofFn fun i => l.getD i 0

/-- A set as the program declares it (R292). -/
def declareSet (s : State) (d : BitVec 4 × Bool × List Byte) : State :=
  s.modSet d.1.toNat fun _ => { mode := if d.2.1 then 2 else 1, digest := d.2.2 }

/-- Firmware watches the partner from program load on (R383). -/
def watchPartner (s : State) : State :=
  if fld s.cu.mirrorCfg 59 44 = 0 then s
  else s.modWatch 0 fun _ => { valid := true, svc := BitVec.ofNat 16 (fld s.cu.mirrorCfg 59 44) }

/-- What the sections of this service ID set outside the cores (R422): windows, sets, tollgates, latch tollgates, mirror windows and
the shape of admission. -/
def writeSections (s : State) (x : ProgSections) : State :=
  let mirror := !(tlv s.ms.record 0x000A).isEmpty
  let s : State := { s with
    tm := { s.tm with win := x.windows.foldl (fun v w => vset v (4 * w.1.toNat + w.2.1.toNat) w.2.2) (Vector.replicate 1024 0) }
    ws := { s.ws with
      load := {}, gens := Vector.replicate 2 {}, latchWgen := 0, latchSel := 0, latchTg := 0, latches := 0, stepWgen := 0
      latchTgs := Vector.ofFn fun m => BitVec.ofNat 64 ((x.latchTgs.filter fun t => t.toNat / 64 == m.val).foldl (fun n t => n ||| 2 ^ (t.toNat % 64)) 0)
      sets := Vector.replicate 16 {}, withheld := [] }
    cu := { s.cu with
      mirrorCfg := setFld (setFld (setFld s.cu.mirrorCfg 21 0 x.poolLo.toNat) 43 22 x.poolHi.toNat) 63 63 (if mirror then 1 else 0)
      mirrorStage := x.stageTa, mirrorArea := x.areaTa }
    hp := { s.hp with
      admCfg := setFld (setFld s.hp.admCfg 35 16 x.maxPos.toNat) 15 0 x.posPerBlock.toNat
      totalBlocks := x.totalBlocks
      freeBlocks := x.totalBlocks - BitVec.ofNat 32 ((s.hp.slots.toList.map fun (n : Slot) => n.blocks).foldl (· + ·) 0) } }
  let s := x.sets.foldl declareSet s
  x.tollgates.foldl (fun s t => s.modTg t.1.toNat fun g => {
    cfg := t.2.1, mask := words4 t.2.2.1, peer := words4 t.2.2.2, round := g.round }) s

/-- After RELOAD each member resumes every slot from its own last waymark (R290, R398). -/
def resumeReload (s : State) : State :=
  if !s.fsvc.reload then s
  else
    let s : State := { s with fsvc := { s.fsvc with held := false, reload := false } }
    startRecovery (s.modCu fun c => { c with recovering := true, resume := (List.range 512).map fun i => ownPos s i })

/-- The loads that a spare has to make: each copy that the service record names, in the order of the generations (R389, R396). -/
def restoreLoads (s : State) (area : Nat) : List WsLoadBody :=
  let r := s.tierRead area 1088
  let copy (i : Nat) : WsLoadBody :=
    let f (o n : Nat) : Nat := recFld r (64 + 32 * i + o) n
    { wgen := BitVec.ofNat 16 (f 0 2), set := BitVec.ofNat 8 (i / 2), source := 1, qpn := 0, rkey := BitVec.ofNat 32 (f 4 4)
      raddr := BitVec.ofNat 64 (f 8 8), length := BitVec.ofNat 64 (f 16 8), pinWaitMs := 0 }
  (((List.range 32).map copy).filter fun b => b.wgen != 0 && (vget s.ws.sets b.set.toNat).mode != 0).mergeSort
    fun a b => decide (a.wgen.toNat ≤ b.wgen.toNat)

/-- A spare that restores a member goes on with its weights (R396). -/
def spareWeights (s : State) : State :=
  match s.cu.restoreTa with
  | some area => if s.cu.isSpare ∧ s.cu.foPhase = 3 then nextOwnLoad { s with ws := { s.ws with own := restoreLoads s area } } else s
  | none => s

/-- The load completes (R422): cores written, every enabled core READY, MS_LOAD, and the report. -/
def finishLoad (s : State) (b : ProgBundle) (x : ProgSections) : State :=
  let cross := crossPart s b.fingerprint
  let low := decide (s.reinLimit.toNat < fld b.fingerprint 35 28)
  let live := coreIds.filter fun c => !s.fusedOff c
  let s := x.images.foldl writeImage (s.modCu fun c => { c with recovering := false })
  let s := writeSections s x
  let s := live.foldl (fun s c => s.modSq c fun q => { q with st := .ready }) s
  let s : State := { s with
    fprint := b.fingerprint, coreFaults := [], fsvc := { s.fsvc with lastStep := none }
    prog := some {
      sections := b.sections, fingerprint := b.fingerprint, cross, reinLow := low, measurement := programMeasurement b
      src := s.ms.loadSrc }
    ms := { s.ms with loading := none, writing := false, load := loadWord s 2 0 cross low (bit b.fingerprint 27) } }
  let s := spareWeights (resumeReload (writeServiceRecord (watchPartner s)))
  s.loadReport (slice (programMeasurement b) 0 48) false 0

/-- The load goes on once no core fences (R422, R470). -/
def loadContinue (s : State) : State :=
  match s.ms.loading with
  | some b => match b.sections.lookup s.svc with
    | some x => if s.ms.writing && s.cu.fences.all (fun u => u == .package) then finishLoad s b x else s
    | none => s
  | none => s

/-- The chunks match: every enabled core is reset behind its fence, which closes at once where the core has drained (R422, R470; DESIGN
CHOICE, log entry 64). -/
def loaderResets (s : State) : State :=
  let live := coreIds.filter fun c => !s.fusedOff c
  let s := live.foldl (fun s c => (sqReset c s).2) (s.modMs fun m => { m with writing := true })
  loadContinue (live.foldl (fun s c => closeCoreFence c s) s)

/-- FENCE_CLOSE (R380). -/
def fenceClose (u : FenceUnit) (s : State) : State :=
  match u with
  | .core c => startRecovery (loadContinue (closeCoreFence c s))
  | .package => closePackageFence s

def execFenceClose (u : FenceUnit) (s : State) : Res := live s (.next (fenceClose u s))

/-- PROG_LOAD_COMPLETE (R422): the chunks have been read; each must match its digest. -/
def progLoadComplete (r : Option (List (List Byte))) (s : State) : State :=
  match s.ms.loading with
  | none => s
  | some b =>
    match r, b.sections.lookup s.svc with
    | some chunks, some _ =>
      if s.ms.writing then s
      else if chunks.map sha384 ≠ b.digests then failProgram s b 0x0A
      else loaderResets s
    | none, _ => failProgram s b 2
    | _, none => failProgram s b 6

def execProgLoadComplete (r : Option (List (List Byte))) (s : State) : Res := live s (.next (progLoadComplete r s))

/-! ### After a PROGRAM fault (R290) -/

/-- PARTITION with RELOAD: the program that PROG_LOAD brings next resumes the slots. -/
def partitionReload (k : Kdmp) (s : State) : State :=
  liveRequest 0x35 k s fun s =>
    if !s.fsvc.held then ((.refused .state, []), s) else ((.ok, []), { s with fsvc := { s.fsvc with reload := true } })

def execPartitionReload (k : Kdmp) (s : State) : Res := .next (partitionReload k s)

/-- PARTITION with RELEASE: every admitted or deferred request is answered with PARTITION_FAULT, and the slots are free. -/
def partitionRelease (k : Kdmp) (s : State) : State :=
  liveRequest 0x35 k s fun s =>
    if !s.fsvc.held then ((.refused .state, []), s)
    else
      let s : State := { s with fsvc := { s.fsvc with held := false, reload := false } }
      ((.ok, []), releaseSlots s 0x0B (if s.hp.admitter then noticeEps s false else []))

def execPartitionRelease (k : Kdmp) (s : State) : Res := .next (partitionRelease k s)

end Sys2Proof.Machine
end

