-- ==== Sys2Proof/Machine/RegRead.lean ====
section
/-! DEFINITION. Reads of the management address space (R7 to R12, R419, R425, R426 and the register tables). -/

namespace Sys2Proof.Machine

/-- An access: its status and the word read. -/
abbrev Access := Status × Word

def ok (v : Word) : Access := (.ok, v)
def unmapped : Access := (.refused .unmapped, 0)
def busyAccess : Access := (.refused .busy, 0)

/-- Whether an offset is word i of an array of n words from a base, with the stride given; the index is then (off − base) / stride. -/
def inArray (off base stride n : Nat) : Bool := decide (base ≤ off ∧ off < base + stride * n)
def idxOf (off base stride : Nat) : Nat := (off - base) / stride

/-- A read of an image whose granules carry codes (R89, R119, R142, R169, R199): an uncorrectable error
fail-stops, and nothing is delivered. -/
def imageRead (st : ErrStore) (c : CoreId) (m : Mem) (a : Nat) (s : State) : Access × State :=
  if s.cu.failstop then
    ((if (errsIn s st c a (a + 8)).any (fun e => e.fold || decide (3 ≤ e.nbits)) then (.refused .ecc, 0) else ok (Mem.word m a)), s)
  else
    let s' := checked s st c a (a + 8) fun s => s
    ((if s'.cu.failstop then (.refused .failed, 0) else ok (Mem.word m a)), s')

/-! ### Sequencer (R149) -/

/-- SQ_STATUS; in READY the next bundle to issue is that of SQ_PC. -/
def sqStatus (k : CoreSt) : Word :=
  let pc := if k.sq.st = .ready then k.sq.startPc else k.sq.pc
  fw 34 34 (if k.quiet then 1 else 0) ||| fw 31 29 k.sq.st.code ||| fw 28 16 pc.toNat ||| fw 15 8 k.sq.holds.toNat
    ||| fw 8 8 (if k.sq.release.isSome then 1 else 0)

/-- The unified register at an offset of the register-file image. -/
def imageReg (off : Nat) : Option Nat :=
  if inArray off 0x1000 8 32 then some (idxOf off 0x1000 8)
  else if inArray off 0x1100 8 16 then some (32 + idxOf off 0x1100 8)
  else if inArray off 0x1180 8 8 then some (48 + idxOf off 0x1180 8)
  else if inArray off 0x1200 8 8 then some (56 + idxOf off 0x1200 8)
  else if inArray off 0x1240 8 4 then some (64 + idxOf off 0x1240 8)
  else none

def sqRead (s : State) (c : CoreId) (off : Nat) : Access × State :=
  let k := s.core c
  let q := k.sq
  match off with
  | 0x00 => (ok (sqStatus k), s)
  | 0x08 => (ok 0, s)
  | 0x10 => (ok (q.startPc.setWidth 64), s)
  | 0x18 => (ok q.fault, s)
  | 0x20 => (ok q.cycle, s)
  | 0x28 => (ok q.devTotal, s)
  | 0x30 => (ok q.devCnt, s)
  | 0x38 => (ok q.devFirst, s)
  | 0x40 => (ok q.releaseCyc, s)
  | 0x48 => (ok 0, s)
  | 0x50 => (ok q.imemPend, s)
  | _ => match imageReg off with
    | some n => (if k.halted then ok (readU s c n) else busyAccess, s)
    | none =>
      if off < 0x80000 then (unmapped, s)
      else if k.halted then imageRead .imem c q.imem (off - 0x80000) s else (busyAccess, s)

/-! ### Core memory (R171) -/

/-- The completion of the management access at an address, among the last of `out`, when it has come: a KDMP message carries it. -/
def takeAnswer (addr n : Nat) (s : State) : Option Access × State :=
  let mine (o : Out) : Bool := match o with
    | .mgmt a _ _ _ => a == addr
    | _ => false
  match (s.out.drop n).find? mine with
  | some (.mgmt a w st v) => (some (st, v), { s with out := s.out.take n ++ (s.out.drop n).erase (.mgmt a w st v) })
  | _ => (none, s)

/-- A-cycles pass at a core, each with an event that an access awaits, until the access completes (log entry 109); `f` bounds them. -/
def awaitAnswer (c : CoreId) (addr n : Nat) (event : State → State) : Nat → State → Access × State
  | 0, s => ((.refused .failed, 0), s)
  | f + 1, s => match takeAnswer addr n s with
    | (some r, s) => (r, s)
    | (none, s) => if s.cu.failstop then ((.refused .failed, 0), s) else awaitAnswer c addr n event f ((event s).pass c 1)

/-- A read through the aperture. While the core runs, it is a row of the async port, which serves the rows before it first (R165). -/
def apertureRead (s : State) (c : CoreId) (off : Nat) : Access × State :=
  let a := 0x80000 * (s.core c).cm.aperture.toNat + (off - 0x80000)
  match coreMemAccess c a false 0 s with
  | (some r, s') => (r, s')
  | (none, s') =>
    if s'.cu.failstop then ((.refused .failed, 0), s')
    else awaitAnswer c (apertureAddr c a) s.out.length (fun s => asyncRowLand c (asyncGuardFire c s))
      (65 * (s'.core c).cm.asyncBuf.length + 2) s'

def cmReg (s : State) (c : CoreId) (off : Nat) : Access × State :=
  let k := s.core c
  let m := k.cm
  match off with
  | 0x00 => (ok (m.asyncMask.setWidth 64), s)
  | 0x08 => (ok m.collide, s)
  | 0x10 => (ok m.collideFirst, s)
  | 0x18 => (ok (asyncStatWord m), s)
  | 0x20 => (ok m.eccCnt, s)
  | 0x28 => (ok m.eccFirst, s)
  | 0x30 => (ok (m.aperture.setWidth 64), s)
  | 0x38 => (ok (fw 8 8 (if m.scrubBusy then 1 else 0) ||| fw 4 0 m.scrubBank.toNat), s)
  | 0x40 => (ok 0, s)
  | _ =>
    if inArray off 0x40000 1 0x20000 then
      if k.halted then imageRead .abuf c k.me.abuf (off - 0x40000) s else (busyAccess, s)
    else if inArray off 0x60000 1 0x2000 then
      if k.halted then imageRead .ascale c k.me.ascale (off - 0x60000) s else (busyAccess, s)
    else if 0x80000 ≤ off then apertureRead s c off
    else (unmapped, s)

/-! ### Matrix and vector engines (R88, R118) -/

def meRead (s : State) (c : CoreId) (off : Nat) : Access × State :=
  let k := s.core c
  let e := k.me
  match off with
  | 0x00 => (ok (meStatus e (s.core c).sq.clk), s)
  | 0x08 => (ok (e.ftq.headD 0), s)
  | 0x10 => (ok e.fault, s)
  | 0x18 => (ok e.devCnt, s)
  | 0x20 => (ok e.chkCnt, s)
  | 0x28 => (ok e.replayCyc, s)
  | 0x30 => (ok 0, s)
  | _ =>
    if inArray off 0x40 8 16 then (ok (vget e.td (idxOf off 0x40 8)), s)
    else if off < 0x80000 then (unmapped, s)
    else if k.halted then imageRead .acc c e.acc (off - 0x80000) s else (busyAccess, s)

def veRead (s : State) (c : CoreId) (off : Nat) : Access × State :=
  let k := s.core c
  match off with
  | 0x00 => (ok (veStatus k), s)
  | 0x08 => (ok k.ve.drainStatus, s)
  | 0x10 => (ok k.ve.fault, s)
  | 0x18 => (ok k.ve.devCnt, s)
  | 0x20 => (ok 0, s)
  | _ =>
    if inArray off 0x10000 1 0x10000 then
      if k.halted then imageRead .vob c k.ve.vob (off - 0x10000) s else (busyAccess, s)
    else (unmapped, s)

/-! ### Channels and DMA (R201, R252) -/

/-- CQ_MP. -/
def cqMpWord (q : Cq) : Word := fw 16 16 (if q.mpPending then 1 else 0) ||| fw 15 8 q.mpStaged.toNat ||| fw 7 0 q.mpCurrent.toNat

def cqRead (s : State) (c : CoreId) (off : Nat) : Access :=
  let q := (s.core c).cq
  match off with
  | 0x00 => ok (cqMpWord q)
  | 0x08 => ok q.limits
  | 0x10 => ok q.fault
  | 0x18 => ok q.devCnt
  | 0x20 => ok q.sendRefused
  | 0x28 => ok q.ringStat
  | 0x30 => ok 0
  | 0x38 => ok (q.flowLimit.setWidth 64)
  | _ =>
    if inArray off 0x1000 8 32 then ok (sepWord (vget q.send (idxOf off 0x1000 8)))
    else if inArray off 0x1100 8 32 then ok (scntWord (vget q.send (idxOf off 0x1100 8)))
    else if inArray off 0x2000 8 32 then ok (repWord (vget q.recv (idxOf off 0x2000 8)))
    else if inArray off 0x2100 8 32 then ok (occWord (vget q.recv (idxOf off 0x2100 8)))
    else if inArray off 0x2200 8 32 then ok (headWord s c (idxOf off 0x2200 8))
    else if inArray off 0x3000 8 16 then ok (qhWord (vget q.handles (idxOf off 0x3000 8)))
    else if inArray off 0x3100 8 4 then ok (lqWord (vget q.queues (idxOf off 0x3100 8)))
    else if inArray off 0x3120 8 4 then ok (lqsWord (vget q.queues (idxOf off 0x3120 8)))
    else unmapped

def dmaRead (d : Dma) (off : Nat) : Access :=
  match off with
  | 0x20 => ok ((List.range 4).foldl (fun w i => w ||| fw (5 * i + 4) (5 * i) (vget d.queues i).descs.length) 0)
  | 0x28 => ok d.fault
  | 0x30 => ok d.hold
  | 0x38 => ok 0
  | _ =>
    if inArray off 0 8 4 then
      let q := vget d.queues (idxOf off 0 8)
      ok (fw 63 32 q.issued.toNat ||| fw 31 0 q.done.toNat)
    else unmapped

/-- A read in a core's window: SQ, CM, ME, VE, CQ and DMA at 1 MiB each (R426). In a fail-stop the quarter's clock stands (R375,
R376). -/
def coreRead (s : State) (c : CoreId) (off : Nat) : Access × State :=
  let o := off % 0x100000
  if s.fusedOff c then ((.refused .disabled, 0), s)
  else if s.cu.failstop then ((.refused .failed, 0), s)
  else match off / 0x100000 with
    | 0 => sqRead s c o
    | 1 => cmReg s c o
    | 2 => meRead s c o
    | 3 => veRead s c o
    | 4 => (cqRead s c o, s)
    | 5 => (dmaRead (s.core c).dma o, s)
    | _ => (unmapped, s)

/-! ### The saddle's blocks -/

/-- Word i of the bytes of a measurement. -/
def measWord (bs : List Byte) (i : Nat) : Word := BitVec.ofNat 64 (recFld bs (8 * i) 8)

/-- MS_BOOT (R427). -/
def msBootWord (s : State) : Word :=
  fw 63 56 s.ms.phase.toNat ||| fw 55 40 s.ms.lastFault.toNat ||| fw 39 37 s.ms.cause.toNat ||| fw 36 36 (if s.sealed then 1 else 0)
    ||| fw 35 35 (if s.ms.debug then 1 else 0)

def msRead (s : State) (off : Nat) : Access :=
  let m := s.ms
  match off with
  | 0x00 => ok (fw 63 16 m.serial.toNat ||| fw 7 0 s.part.gradeStep)
  | 0x08 => ok (msBootWord s)
  | 0x10 => ok 0
  | 0x18 => ok (fw 63 56 m.svn ||| fw 31 0 (recFld m.firmware.1 8 4))
  | 0x20 => ok m.load
  | 0x58 => ok (fw 63 63 (if m.owner.isEmpty then 0 else 1) ||| fw 6 0 (minSvn m))
  | 0x60 => ok (kdmpStatWord m)
  | 0x68 => ok m.fault
  | 0x70 => ok 0
  | _ =>
    if inArray off 0x28 8 6 then ok (m.nonce.getD (idxOf off 0x28 8) 0)
    else if inArray off 0x100 8 6 then ok (measWord (if m.phase = 0 then [] else bootRom) (idxOf off 0x100 8))
    else if inArray off 0x130 8 6 then ok (measWord (recordMeasurement m.record) (idxOf off 0x130 8))
    else if inArray off 0x160 8 6 then ok (measWord (firmwareMeasurement m) (idxOf off 0x160 8))
    else if inArray off 0x190 8 6 then ok (measWord (programMarks s).2.2 (idxOf off 0x190 8))
    else unmapped

def wsRead (w : Ws) (off : Nat) : Access :=
  match off with
  | 0x00 => ok (wsLoadWord w.load)
  | 0x08 => ok (wsGenWord (w.gens[0]))
  | 0x10 => ok (wsGenWord (w.gens[1]))
  | 0x18 => ok (wsLatchWord w)
  | 0x20 => ok w.stat
  | 0x28 => ok w.bytes
  | 0x30 => ok 0
  | _ =>
    if inArray off 0x40 8 4 then ok (vget w.latchTgs (idxOf off 0x40 8))
    else if inArray off 0x100 8 16 then ok (wsSetWord (vget w.sets (idxOf off 0x100 8)))
    else unmapped

/-- The clock block but for MS_MSC_NS, whose read latches the fraction. -/
def ckRead (s : State) (off : Nat) : Access :=
  let k := s.ck
  match off with
  | 0x00 => ok (fw 47 8 k.stepInc.toNat ||| fw 4 0 k.stepM.toNat)
  | 0x08 => ok (fw 63 48 k.changes.toNat ||| fw 47 8 k.inc.toNat ||| fw 7 7 (if k.hold.isSome then 1 else 0)
      ||| fw 6 6 (if k.rest then 1 else 0) ||| fw 4 0 k.m.toNat)
  | 0x10 => ok (fw 63 48 k.refmonLast.toNat ||| fw 47 32 k.refmonMin.toNat ||| fw 0 0 (if k.lock then 1 else 0))
  | 0x20 => ok (k.fracLatch.setWidth 64)
  | 0x28 => ok (servoWord k)
  | 0x30 | 0x38 => ok 0
  | 0x40 => ok (s.reinLimit.setWidth 64)
  | 0x68 => ok k.temp
  | 0x70 => ok k.therm
  | 0x78 => ok 0
  | _ => if inArray off 0x48 8 4 then ok (vget k.avs (idxOf off 0x48 8)) else unmapped

def cuRead (s : State) (off : Nat) : Access :=
  let c := s.cu
  match off with
  | 0x00 => ok (cuStatusWord c)
  | 0x28 => ok c.ceCnt
  | 0x30 => ok c.staleReply
  | 0x38 => ok c.mirrorCfg
  | 0x40 => ok (c.mirrorStage.setWidth 64)
  | 0x48 => ok (c.mirrorArea.setWidth 64)
  | 0x50 => ok c.mirrorStat
  | 0x78 => ok 0
  | _ =>
    if inArray off 0x08 8 4 then ok (vget c.failRec (idxOf off 0x08 8))
    else if inArray off 0x58 8 4 then ok (vget c.spare (idxOf off 0x58 8))
    else if inArray off 0x100 8 32 then ok (watchWord (vget c.watch (idxOf off 0x100 8)))
    else if inArray off 0x1000 8 64 then ok (coreIncWord s (idxOf off 0x1000 8))
    else unmapped

/-- The registers of a section, 32 bytes each (R371). -/
def sectRead (h : Hp) (off : Nat) : Word :=
  let x := vget h.sections (off / 32)
  match off % 32 with
  | 0 => x.cfg
  | 8 => x.raddr
  | 16 => x.rkey
  | _ => sectStatWord h x

def hpRead (h : Hp) (off : Nat) : Access :=
  match off with
  | 0x00 => ok h.portStatus
  | 0x08 => ok h.mac
  | 0x10 => ok h.net
  | 0x18 => ok h.ip4
  | 0x20 => ok h.ip6Hi
  | 0x28 => ok h.ip6Lo
  | 0x30 => ok h.devKeys
  | 0x38 => ok h.admCfg
  | 0x40 => ok h.admCtrl
  | 0x48 => ok (fw 63 32 h.totalBlocks.toNat ||| fw 31 0 h.freeBlocks.toNat)
  | 0x70 => ok (admStatWord h)
  | 0x78 => ok h.reqStat
  | 0x80 => ok h.emitStat
  | 0x88 => ok h.ringCfg
  | 0x90 => ok h.ptpRx
  | 0x98 => ok h.ptpTx
  | 0xA0 => ok h.linkStat
  | 0xA8 => ok 0
  | 0xB0 => ok h.fault
  | 0xB8 => ok h.nepCmd
  | 0xC0 => ok h.nepWord
  | _ =>
    if inArray off 0x50 8 4 then ok (vget h.cls (idxOf off 0x50 8))
    else if inArray off 0x1000 32 16 then ok (sectRead h (off - 0x1000))
    else if inArray off 0x1200 8 16 then ok (vget h.sections (idxOf off 0x1200 8)).rcred
    else if inArray off 0x4000 8 512 then ok (slotWord (vget h.slots (idxOf off 0x4000 8)))
    else if inArray off 0x6000 8 256 then ok (sepWord (vget h.nsend (idxOf off 0x6000 8)))
    else if inArray off 0x6800 8 256 then ok (repWord (vget h.nrecv (idxOf off 0x6800 8)))
    else if inArray off 0x7000 8 256 then ok (occWord (vget h.nrecv (idxOf off 0x7000 8)))
    else unmapped

/-- The registers of a port (R347). -/
def portRead (p : FiPort) (off : Nat) : Access :=
  match off with
  | 0x00 => ok (portStatusWord p)
  | 0x08 => ok p.expect
  | 0x10 => ok p.seen
  | 0x18 => ok p.link
  | 0x20 => ok p.txPkt
  | 0x28 => ok p.txByte
  | 0x30 => ok p.rxPkt
  | 0x38 => ok p.rxByte
  | _ => if inArray off 0x40 8 8 then ok (vcWord (vget p.vcs (idxOf off 0x40 8))) else unmapped

def fiRead (s : State) (off : Nat) : Access :=
  let f := s.fi
  match off with
  | 0x00 => ok (identRegister s)
  | 0x08 => ok 0
  | 0x10 => ok f.portMap
  | 0x18 => ok f.laneCfg
  | 0x20 => ok f.vcCfg
  | 0x48 => ok 0
  | 0x50 => ok (rtStatusWord f)
  | 0x58 => ok f.rtStat
  | 0x60 => ok f.ingStat
  | 0x68 => ok f.timeCfg
  | 0x70 => ok f.timeStat
  | 0x78 => ok f.teleCfg
  | 0x80 => ok 0
  | 0x88 => ok f.fault
  | _ =>
    if inArray off 0x28 8 4 then ok (vget f.pkey (idxOf off 0x28 8))
    else if inArray off 0x1000 0x200 8 then portRead (vget f.ports (idxOf off 0x1000 0x200)) (off % 0x200)
    else unmapped

/-- The counters of a requester of the selected arbiter (R271, R276). -/
def arbCount (p : Pn) (r : Nat) : ArbCount :=
  let kind := fld p.arbSel 15 12
  let index := fld p.arbSel 11 0
  (p.counts.find? fun c => c.kind == kind && c.index == index && c.requester == r).getD { kind, index, requester := r }

def pnRead (p : Pn) (off : Nat) : Access :=
  match off with
  | 0x00 => ok (if p.arbMode then 1 else 0)
  | 0x08 => ok p.arbBurst
  -- R272: the priority registers are absent in COUNTERS_ONLY and read 0
  | 0x10 => ok (if p.arbMode then p.prioRing else 0)
  | 0x18 => ok (if p.arbMode then p.prioPort else 0)
  | 0x20 => ok (if p.arbMode then p.prioBridge else 0)
  | 0x28 => ok p.arbSel
  | 0x30 => ok p.devSummary
  | 0x78 => ok p.holdFirst
  | 0x80 => ok p.eccCnt
  | 0x88 => ok 0
  | _ =>
    if inArray off 0x38 8 4 then ok (vget p.devMap (idxOf off 0x38 8))
    else if inArray off 0x58 8 4 then ok (vget p.schedHold (idxOf off 0x58 8))
    else if inArray off 0x100 24 16 then
      let c := arbCount p (idxOf off 0x100 24)
      match (off - 0x100) % 24 with
      | 0 => ok (fw 63 32 (min c.grants (2 ^ 32 - 1)) ||| fw 31 0 (min c.preempted (2 ^ 32 - 1)))
      | 8 => ok (BitVec.ofNat 64 (min c.waits (2 ^ 64 - 1)))
      | _ => ok (fw 31 0 (min c.maxwait (2 ^ 32 - 1)))
    else unmapped

/-- A tollgate's registers, 128 bytes each (R253). -/
def tgRead (t : Tollgate) (off : Nat) : Access :=
  match off with
  | 0x00 => ok t.cfg
  | 0x28 => ok (tgStateWord t)
  | 0x50 => ok 0
  | _ =>
    if inArray off 0x08 8 4 then ok (vget t.mask (idxOf off 0x08 8))
    else if inArray off 0x30 8 4 then ok (vget t.peer (idxOf off 0x30 8))
    else unmapped

def tgBlockRead (s : State) (off : Nat) : Access :=
  if off < 0x8000 then tgRead (s.tg (off / 128)) (off % 128)
  else if inArray off 0x10000 16 64 then
    let q := vget s.saddleQ (idxOf off 0x10000 16)
    ok (if off % 16 = 0 then lqWord q else lqsWord q)
  else unmapped

def tmRead (s : State) (off : Nat) : Access :=
  let t := s.tm
  match off with
  | 0x00 => ok t.pmStat
  | 0x08 => ok t.scrubCfg
  | 0x10 => ok t.scrubStat
  | 0x18 => ok t.eccFirst
  | 0x20 => ok 0
  | _ =>
    if inArray off 0x1000 8 512 then ok ((vget t.slotGen (idxOf off 0x1000 8)).setWidth 64)
    else if inArray off 0x2000 8 256 then ok (vget s.tm.cols (idxOf off 0x2000 8)).stat
    else if inArray off 0x4000 8 1024 then ok (vget t.win (idxOf off 0x4000 8))
    else unmapped

/-- An access of tier memory by a KDMP message: the slow path's request at the column port, whose completion the message carries (R174).
In a step hold, in which no a-cycle passes, it finds the port idle. -/
def slowAccess (addr : Nat) (write : Bool) (v : Word) (s : State) : Access × State :=
  let col := taColumn (flatTa (addr - 0x8000000000))
  let sd : Side := if write then .write else .read
  let c : BitVec 8 := BitVec.ofNat 8 col
  let n := s.out.length
  let s' := if s.ck.hold.isSome then slowNow (BitVec.ofNat 40 addr) write v s else tierSlowPathAccess (BitVec.ofNat 40 addr) write v s
  awaitAnswer c addr n (fun s => asyncTransferComplete c sd (burstLimitExpiry c sd (columnPortGuard c sd s))) 8192 s'

/-! ### The map (R426) -/

/-- A management read of one word (R7, R419). -/
def mgmtRead (a : Nat) (s : State) : Access × State :=
  if a % 8 ≠ 0 then ((.refused .align, 0), s)
  else if a < 0x100000 then (msRead s a, s)
  else if a < 0x200000 then (wsRead s.ws (a - 0x100000), s)
  else if a = 0x200018 then
    let (v, s) := readNs s
    (ok v, s)
  else if a < 0x300000 then (ckRead s (a - 0x200000), s)
  else if inArray a 0x0100000000 1 0x100000000 then (cuRead s (a - 0x0100000000), s)
  else if inArray a 0x0200000000 1 0x100000000 then (hpRead s.hp (a - 0x0200000000), s)
  else if inArray a 0x0300000000 1 0x100000 then (fiRead s (a - 0x0300000000), s)
  else if inArray a 0x0300100000 1 0x40000 then (ok (Mem.word s.fi.rtA (a - 0x0300100000)), s)
  else if inArray a 0x0300140000 1 0x40000 then (ok (Mem.word s.fi.rtB (a - 0x0300140000)), s)
  else if inArray a 0x0400000000 1 0x1000000 then (pnRead s.pn (a - 0x0400000000), s)
  else if inArray a 0x0401000000 1 0x1000000 then (tgBlockRead s (a - 0x0401000000), s)
  else if inArray a 0x0500000000 1 0x800000 then imageRead .pageMap 0 s.pageMap (a - 0x0500000000) s
  else if inArray a 0x0500800000 1 0x8000 then (tmRead s (a - 0x0500800000), s)
  else if inArray a 0x1000000000 0x1000000 256 then
    coreRead s (BitVec.ofNat 8 (idxOf a 0x1000000000 0x1000000)) (a % 0x1000000)
  else if inArray a 0x8000000000 tierBytes 2048 then slowAccess a false 0 s
  else (unmapped, s)

end Sys2Proof.Machine
end

