-- ==== Sys2Proof/Machine/RegWrite.lean ====
section
/-! DEFINITION. Counter clears, writes of the management address space, and KDMP register access (R7 to R12, R376, R377, R401,
R418, R419, R425, R426 and the register tables). -/

namespace Sys2Proof.Machine

/-- Bits [hi:lo] of a word, kept in place: what a write sets of a register whose other bits are reserved (R9). -/
def keepBits (v : Word) (hi lo : Nat) : Word := fw hi lo (fld v hi lo)

/-! ### Counter clears -/

def meClrDev (c : CoreId) (s : State) : State := s.modMe c fun e => { e with devCnt := 0 }
def meClrChk (c : CoreId) (s : State) : State := s.modMe c fun e => { e with chkCnt := 0 }
def meClrReplayCyc (c : CoreId) (s : State) : State := s.modMe c fun e => { e with replayCyc := 0 }
def veClrDev (c : CoreId) (s : State) : State := s.modVe c fun v => { v with devCnt := 0 }
def veClrDrains (c : CoreId) (s : State) : State := s.modVe c fun v => { v with drainStatus := clrFld v.drainStatus 31 0 }
def sqClrDev (c : CoreId) (s : State) : State := s.modSq c fun q => { q with devTotal := 0, devCnt := 0, devFirst := 0 }
def sqClrRelease (c : CoreId) (s : State) : State := s.modSq c fun q => { q with releaseCyc := 0 }
def cmClrCollide (c : CoreId) (s : State) : State := s.modCm c fun m => { m with collide := 0, collideFirst := 0 }
def cmClrAsync (c : CoreId) (s : State) : State := s.modCm c fun m => { m with asyncStat := 0 }
def cmClrEcc (c : CoreId) (s : State) : State := s.modCm c fun m => { m with eccCnt := 0, eccFirst := 0 }
def dmaClrHold (c : CoreId) (s : State) : State := s.modDma c fun d => { d with hold := 0 }
def cqClrDev (c : CoreId) (s : State) : State := s.modCq c fun q => { q with devCnt := 0 }
def cqClrRefused (c : CoreId) (s : State) : State := s.modCq c fun q => { q with sendRefused := 0 }
def cqClrRing (c : CoreId) (s : State) : State := s.modCq c fun q => { q with ringStat := 0 }

def tmClrPm (s : State) : State := { s with tm := { s.tm with pmStat := clrFld s.tm.pmStat 63 16 } }
def tmClrCol (s : State) : State :=
  { s with tm := { s.tm with cols := s.tm.cols.map fun k => { k with stat := clrFld k.stat 63 16 } } }
def tmClrEcc (s : State) : State :=
  { s with tm := { s.tm with
      eccFirst := 0, pmStat := clrFld s.tm.pmStat 15 0, cols := s.tm.cols.map fun k => { k with stat := clrFld k.stat 15 0 } } }
def pnClrHold (s : State) : State := { s with pn := { s.pn with schedHold := Vector.replicate 4 0, holdFirst := 0 } }
def pnClrArb (s : State) : State := { s with pn := { s.pn with counts := [] } }
def pnClrEcc (s : State) : State := { s with pn := { s.pn with eccCnt := 0 } }
def fiClrRt (s : State) : State := { s with fi := { s.fi with rtStat := 0 } }
def fiClrIng (s : State) : State := { s with fi := { s.fi with ingStat := 0 } }
def fiClrLink (s : State) : State := { s with fi := { s.fi with ports := s.fi.ports.map fun p => { p with link := 0 } } }
def hpClrReq (s : State) : State := { s with hp := { s.hp with reqStat := 0 } }
def hpClrEmit (s : State) : State := { s with hp := { s.hp with emitStat := 0 } }
def hpClrLink (s : State) : State := { s with hp := { s.hp with linkStat := 0 } }
def cuClrCe (s : State) : State := s.modCu fun c => { c with ceCnt := 0 }
def cuClrStale (s : State) : State := s.modCu fun c => { c with staleReply := 0 }
def cuClrMirror (s : State) : State := s.modCu fun c => { c with mirrorStat := clrFld c.mirrorStat 63 16 }
def wsClrStat (s : State) : State := { s with ws := { s.ws with stat := 0, bytes := 0 } }
def msClrKdmp (s : State) : State := s.modMs fun m => { m with authFail := 0, replay := 0 }
def ckClrChanges (s : State) : State := s.modCk fun k => { k with changes := 0 }
def ckClrRefmon (s : State) : State := s.modCk fun k => { k with refmonMin := 0xFFFF }
def ckClrAvs (s : State) : State := s.modCk fun k => { k with avs := k.avs.map fun w => clrFld w 47 32 }

/-- A clear in a core's window, and one elsewhere, with their completions. -/
def coreClear (c : CoreId) (block off : Nat) (f : State → State) (s : State) : Res := .next (s.coreOp c block off fun s => (.ok, f s))
def pkgClear (addr : Nat) (f : State → State) (s : State) : Res := .next (s.mgmtOp addr fun s => (.ok, f s))

def execMeCntClrReplayCyc (c : CoreId) (s : State) : Res := coreClear c 2 0x30 (meClrReplayCyc c) s
def execMeCntClrChk (c : CoreId) (s : State) : Res := coreClear c 2 0x30 (meClrChk c) s
def execMeCntClrDev (c : CoreId) (s : State) : Res := coreClear c 2 0x30 (meClrDev c) s
def execVeCntClrDrains (c : CoreId) (s : State) : Res := coreClear c 3 0x20 (veClrDrains c) s
def execVeCntClrDev (c : CoreId) (s : State) : Res := coreClear c 3 0x20 (veClrDev c) s
def execSqCntClrRelease (c : CoreId) (s : State) : Res := coreClear c 0 0x48 (sqClrRelease c) s
def execSqCntClrDev (c : CoreId) (s : State) : Res := coreClear c 0 0x48 (sqClrDev c) s
def execCmCntClrEcc (c : CoreId) (s : State) : Res := coreClear c 1 0x40 (cmClrEcc c) s
def execCmCntClrAsync (c : CoreId) (s : State) : Res := coreClear c 1 0x40 (cmClrAsync c) s
def execCmCntClrCollide (c : CoreId) (s : State) : Res := coreClear c 1 0x40 (cmClrCollide c) s
def execTmDmaClrHold (c : CoreId) (s : State) : Res := coreClear c 5 0x38 (dmaClrHold c) s
def execCqCntClrRing (c : CoreId) (s : State) : Res := coreClear c 4 0x30 (cqClrRing c) s
def execCqCntClrRefused (c : CoreId) (s : State) : Res := coreClear c 4 0x30 (cqClrRefused c) s
def execCqCntClrDev (c : CoreId) (s : State) : Res := coreClear c 4 0x30 (cqClrDev c) s
def execTmCntClrEcc (s : State) : Res := pkgClear 0x0500800020 tmClrEcc s
def execTmCntClrCol (s : State) : Res := pkgClear 0x0500800020 tmClrCol s
def execTmCntClrPm (s : State) : Res := pkgClear 0x0500800020 tmClrPm s
def execPnCntClrEcc (s : State) : Res := pkgClear 0x0400000088 pnClrEcc s
def execPnCntClrArb (s : State) : Res := pkgClear 0x0400000088 pnClrArb s
def execPnCntClrHold (s : State) : Res := pkgClear 0x0400000088 pnClrHold s
def execFiCntClrLink (s : State) : Res := pkgClear 0x0300000080 fiClrLink s
def execFiCntClrIng (s : State) : Res := pkgClear 0x0300000080 fiClrIng s
def execFiCntClrRt (s : State) : Res := pkgClear 0x0300000080 fiClrRt s
def execHpCntClrLink (s : State) : Res := pkgClear 0x02000000A8 hpClrLink s
def execHpCntClrEmit (s : State) : Res := pkgClear 0x02000000A8 hpClrEmit s
def execHpCntClrReq (s : State) : Res := pkgClear 0x02000000A8 hpClrReq s
def execCuCntClrMirror (s : State) : Res := pkgClear 0x0100000078 cuClrMirror s
def execCuCntClrStale (s : State) : Res := pkgClear 0x0100000078 cuClrStale s
def execCuCntClrCe (s : State) : Res := pkgClear 0x0100000078 cuClrCe s
def execMsWsCntClrStat (s : State) : Res := pkgClear 0x0000100030 wsClrStat s
def execMsCntClrKdmp (s : State) : Res := pkgClear 0x0000000070 msClrKdmp s
def execMsCkCntClrAvs (s : State) : Res := pkgClear 0x0000200078 ckClrAvs s
def execMsCkCntClrRefmon (s : State) : Res := pkgClear 0x0000200078 ckClrRefmon s
def execMsCkCntClrChanges (s : State) : Res := pkgClear 0x0000200078 ckClrChanges s

/-! ### Writes -/

/-- The completion and effect of a write. -/
abbrev Effect := Status × State

/-- A write with no effect on state that completes OK: a read-only register (R8). -/
def ignored (s : State) : Effect := (.ok, s)
def noRegister (s : State) : Effect := (.refused .unmapped, s)

/-- An effect that is refused while a condition holds. -/
def refuseIf (b : Bool) (r : Reason) (s : State) (e : Effect) : Effect := if b then (.refused r, s) else e

/-- An RWL register (R11). -/
def lockable (s : State) (e : Effect) : Effect := refuseIf s.sealed .sealed s e

/-- The actions of a WO register whose bits are set, in ascending order; the last status that is not OK is reported. -/
def actions (v : Word) (fs : List (Nat × (State → Effect))) (s : State) : Effect :=
  fs.foldl (fun e f =>
    if bit v f.1 then
      let (st, s) := f.2 e.2
      (if st = .ok then e.1 else st, s)
    else e) (.ok, s)

/-- A clear as an action. -/
def clr (f : State → State) (s : State) : Effect := (.ok, f s)

/-- Whether any core of the package is in RUN. -/
def State.anyRun (s : State) : Bool := s.cores.toList.any fun k => k.sq.st == .run

/-- SQ_CTRL: one action bit at a time (R149). -/
def sqCtrlWrite (c : CoreId) (v : Word) (s : State) : Effect :=
  if 1 < popcount v 4 then (.refused .state, s)
  else actions v [(0, sqStart c), (1, sqStop c), (2, sqResume c), (3, sqReset c)] s

def sqWrite (c : CoreId) (off : Nat) (v : Word) (s : State) : Effect :=
  let k := s.core c
  match off with
  | 0x08 => sqCtrlWrite c v s
  | 0x10 =>
    refuseIf (!(k.sq.st == .ready || k.sq.st == .stopped || k.sq.st == .done)) .state s
      (.ok, s.modSq c fun q => { q with startPc := BitVec.ofNat 13 (fld v 12 0) })
  | 0x48 => actions v [(0, clr (sqClrDev c)), (1, clr (sqClrRelease c))] s
  | 0x00 | 0x18 | 0x20 | 0x28 | 0x30 | 0x38 | 0x40 | 0x50 => ignored s
  | _ => match imageReg off with
    | some n => refuseIf (!k.halted) .busy s (.ok, s.modSq c fun q => q.writeU n v)
    | none =>
      if off < 0x80000 then noRegister s
      else refuseIf (!k.halted) .busy s
        (.ok, clearErrs (s.modSq c fun q => { q with imem := Mem.setWord q.imem (off - 0x80000) v }) .imem c
          ((off - 0x80000) / 32 * 32) ((off - 0x80000) / 32 * 32 + 32))

/-- A write of a word of an image of a halted core (R119, R142). -/
def imageWrite (st : ErrStore) (c : CoreId) (a : Nat) (f : State → State) (s : State) : Effect :=
  refuseIf (!(s.core c).halted) .busy s (.ok, clearErrs (f s) st c (a / 32 * 32) (a / 32 * 32 + 32))

/-- A write through the aperture (R165, R171). -/
def apertureWrite (c : CoreId) (off : Nat) (v : Word) (s : State) : Effect :=
  match coreMemAccess c (0x80000 * (s.core c).cm.aperture.toNat + (off - 0x80000)) true v s with
  | (some r, s') => (r.1, s')
  | (none, s') => (.refused .failed, s')

def cmWriteReg (c : CoreId) (off : Nat) (v : Word) (s : State) : Effect :=
  match off with
  | 0x00 => cmAsyncMaskWrite c v s
  | 0x30 => (.ok, s.modCm c fun m => { m with aperture := BitVec.ofNat 4 (fld v 3 0) })
  | 0x38 => cmScrubStart c v s
  | 0x40 => actions v [(0, clr (cmClrCollide c)), (1, clr (cmClrAsync c)), (2, clr (cmClrEcc c))] s
  | 0x08 | 0x10 | 0x18 | 0x20 | 0x28 => ignored s
  | _ =>
    if inArray off 0x40000 1 0x20000 then
      imageWrite .abuf c (off - 0x40000) (fun s => s.modMe c fun e => { e with abuf := Mem.setWord e.abuf (off - 0x40000) v }) s
    else if inArray off 0x60000 1 0x2000 then
      imageWrite .ascale c (off - 0x60000) (fun s => s.modMe c fun e => { e with ascale := Mem.setWord e.ascale (off - 0x60000) v }) s
    else if 0x80000 ≤ off then apertureWrite c off v s
    else noRegister s

def meWrite (c : CoreId) (off : Nat) (v : Word) (s : State) : Effect :=
  match off with
  | 0x30 => actions v [(0, clr (meClrDev c)), (1, clr (meClrChk c)), (2, clr (meClrReplayCyc c))] s
  | 0x00 | 0x08 | 0x10 | 0x18 | 0x20 | 0x28 => ignored s
  | _ =>
    if inArray off 0x40 8 16 then
      refuseIf (!(s.core c).halted) .busy s (.ok, s.modMe c fun e => { e with td := vset e.td (idxOf off 0x40 8) (descWord v) })
    else if off < 0x80000 then noRegister s
    else ignored s

/-- W1C bits [hi:lo] of a word: a written 1 clears (R8), but a bit set in the present c-cycle, which `now` marks, stays set (R10). -/
def w1c (old now v : Word) (hi lo : Nat) : Word := old &&& ~~~(keepBits v hi lo &&& ~~~now)

def veWrite (c : CoreId) (off : Nat) (v : Word) (s : State) : Effect :=
  match off with
  | 0x00 => (.ok, s.modVe c fun e => { e with sticky := w1c e.sticky e.stickyNow v 19 17 })
  | 0x08 => (.ok, s.modVe c fun e => { e with drainStatus := w1c e.drainStatus e.drainNow v 63 60 })
  | 0x20 => actions v [(0, clr (veClrDev c)), (1, clr (veClrDrains c))] s
  | 0x10 | 0x18 => ignored s
  | _ =>
    if inArray off 0x10000 1 0x10000 then
      imageWrite .vob c (off - 0x10000) (fun s => s.modVe c fun e => { e with vob := Mem.setWord e.vob (off - 0x10000) v }) s
    else noRegister s

def cqWrite (c : CoreId) (off : Nat) (v : Word) (s : State) : Effect :=
  match off with
  | 0x00 =>
    refuseIf (!(s.core c).halted) .busy s (.ok, s.modCq c fun q => { q with
      mpPending := bit v 16, mpStaged := BitVec.ofNat 8 (fld v 15 8), mpCurrent := BitVec.ofNat 8 (fld v 7 0) })
  | 0x08 => (.ok, s.modCq c fun q => { q with limits := v })
  | 0x30 => actions v [(0, clr (cqClrDev c)), (1, clr (cqClrRefused c)), (2, clr (cqClrRing c))] s
  | 0x38 => (.ok, s.modCq c fun q => { q with flowLimit := BitVec.ofNat 32 (fld v 31 0) })
  | _ => if (cqRead s c off).1 = .ok then ignored s else noRegister s

def dmaWrite (c : CoreId) (off : Nat) (v : Word) (s : State) : Effect :=
  if off = 0x38 then actions v [(0, clr (dmaClrHold c))] s
  else if (dmaRead (s.core c).dma off).1 = .ok then ignored s else noRegister s

/-- A write in a core's window (R426). -/
def coreWrite (c : CoreId) (off : Nat) (v : Word) (s : State) : Effect :=
  let o := off % 0x100000
  if s.fusedOff c then (.refused .disabled, s)
  else match off / 0x100000 with
    | 0 => sqWrite c o v s
    | 1 => cmWriteReg c o v s
    | 2 => meWrite c o v s
    | 3 => veWrite c o v s
    | 4 => cqWrite c o v s
    | 5 => dmaWrite c o v s
    | _ => noRegister s

/-- MS_CTRL but for its resets (R427). -/
def msCtrlWrite (v : Word) (s : State) : Effect :=
  let reset (f : State → State) (s : State) : Effect := if s.resetting then (.refused .busy, s) else (.ok, f s)
  actions v [(6, msKick), (1, msSeal), (5, msReady), (4, msStartAll), (3, reset (coldReset 3)), (2, reset (beginWarm 5))] s

def msWrite (off : Nat) (v : Word) (s : State) : Effect :=
  match off with
  | 0x10 => msCtrlWrite v s
  | 0x70 => actions v [(0, clr msClrKdmp)] s
  | _ => if (msRead s off).1 = .ok then ignored s else noRegister s

def wsWrite (off : Nat) (v : Word) (s : State) : Effect :=
  if inArray off 0x40 8 4 then
    refuseIf s.anyRun .busy s (.ok, { s with ws := { s.ws with latchTgs := vset s.ws.latchTgs (idxOf off 0x40 8) v } })
  else if off = 0x30 then actions v [(0, clr wsClrStat)] s
  else if (wsRead s.ws off).1 = .ok then ignored s else noRegister s

/-- MS_REIN_LIMIT (R11, R445). -/
def reinWrite (v : Word) (s : State) : Effect :=
  let n := fld v 7 0
  lockable s (refuseIf (decide (n < 1 ∨ 128 < n)) .range s (.ok, { s with reinLimit := BitVec.ofNat 8 n }))

def ckWrite (off : Nat) (v : Word) (s : State) : Effect :=
  match off with
  | 0x00 => clkStep v s
  | 0x30 => hostOfs v s
  | 0x38 => actions v [(0, restEnter), (1, restWake)] s
  | 0x40 => reinWrite v s
  | 0x70 => (.ok, s.modCk fun k => { k with therm := setFld (w1c k.therm (if k.thermNow then fw 13 13 1 else 0) v 13 13) 11 0 (fld v 11 0) })
  | 0x78 => actions v [(0, clr ckClrChanges), (1, clr ckClrRefmon), (2, clr ckClrAvs)] s
  | _ => if off = 0x18 ∨ (ckRead s off).1 = .ok then ignored s else noRegister s

/-- CU_FAIL_REC0 to CU_FAIL_REC3 (R377), which a fail-stop accepts too (R376). -/
def failRecWrite (i : Nat) (v : Word) (s : State) : Effect :=
  let v := if i = 0 then keepBits v 63 31 ||| keepBits v 0 0 else v
  (.ok, s.modCu fun c => { c with failRec := vset c.failRec i v })

/-- CU_WATCHw (R401). -/
def watchWrite (i : Nat) (v : Word) (s : State) : Effect :=
  (.ok, s.modWatch i fun w => { w with
    valid := bit v 63, lost := bit v 62, missed := fld v 61 60, svc := BitVec.ofNat 16 (fld v 47 32)
    lossNs := BitVec.ofNat 32 (fld v 31 0) })

def cuWrite (off : Nat) (v : Word) (s : State) : Effect :=
  match off with
  | 0x38 => refuseIf s.anyRun .busy s (.ok, s.modCu fun c => { c with mirrorCfg := keepBits v 63 63 ||| keepBits v 59 0 })
  | 0x40 => refuseIf s.anyRun .busy s (.ok, s.modCu fun c => { c with mirrorStage := BitVec.ofNat 37 (fld v 36 0) })
  | 0x48 => refuseIf s.anyRun .busy s (.ok, s.modCu fun c => { c with mirrorArea := BitVec.ofNat 37 (fld v 36 0) })
  | 0x78 => actions v [(0, clr cuClrCe), (1, clr cuClrStale), (2, clr cuClrMirror)] s
  | _ =>
    if inArray off 0x08 8 4 then failRecWrite (idxOf off 0x08 8) v s
    else if inArray off 0x58 8 4 then
      lockable s (.ok, s.modCu fun c => { c with spare := vset c.spare (idxOf off 0x58 8) (keepBits v 63 63 ||| keepBits v 15 0) })
    else if inArray off 0x100 8 32 then watchWrite (idxOf off 0x100 8) v s
    else if (cuRead s off).1 = .ok then ignored s else noRegister s

/-- An RWL register of the host port. -/
def hpLocked (s : State) (f : Hp → Hp) : Effect := lockable s (.ok, { s with hp := f s.hp })

/-- A register that is refused while admission runs (R371). -/
def hpIdle (s : State) (f : Hp → Hp) : Effect := refuseIf (bit s.hp.admCtrl 0) .busy s (.ok, { s with hp := f s.hp })

/-- HP_POOL (R371): the blocks charged stay charged. -/
def poolWrite (v : Word) (h : Hp) : Hp :=
  let total : BitVec 32 := BitVec.ofNat 32 (fld v 63 32)
  { h with totalBlocks := total, freeBlocks := total - (h.totalBlocks - h.freeBlocks) }

/-- HP_NEP_CMD (R363); a reserved action does nothing. -/
def nepCmdWrite (v : Word) (s : State) : Effect :=
  let e : BitVec 8 := BitVec.ofNat 8 (fld v 59 52)
  match fld v 62 60 with
  | 1 => nepCommand 1 e (nepAccept e) s
  | 2 => nepCommand 2 e (nepOpen false e) s
  | 3 => nepCommand 3 e (nepOpen true e) s
  | 4 => nepCommand 4 e flushClose s
  | 5 => nepCommand 5 e (nepCloseRecv e) s
  | _ => refuseIf (bit s.hp.nepCmd 63) .busy s (ignored s)

/-- The registers of a section (R371). -/
def sectWrite (off : Nat) (v : Word) (s : State) : Effect :=
  let i := off / 32
  match off % 32 with
  | 0 => refuseIf (bit s.hp.admCtrl 0) .busy s (.ok, s.modSec i fun x => { x with cfg := keepBits v 63 14 })
  | 8 => (.ok, s.modSec i fun x => { x with raddr := v })
  | 16 => (.ok, s.modSec i fun x => { x with rkey := keepBits v 31 0 })
  | _ => ignored s

def hpWrite (off : Nat) (v : Word) (s : State) : Effect :=
  match off with
  | 0x08 => hpLocked s fun h => { h with mac := keepBits v 47 0 }
  | 0x10 => hpLocked s fun h => { h with net := keepBits v 16 0 }
  | 0x18 => hpLocked s fun h => { h with ip4 := keepBits v 31 0 }
  | 0x20 => hpLocked s fun h => { h with ip6Hi := v }
  | 0x28 => hpLocked s fun h => { h with ip6Lo := v }
  | 0x30 => hpLocked s fun h => { h with devKeys := v }
  | 0x38 => hpIdle s fun h => { h with admCfg := keepBits v 63 47 ||| keepBits v 35 0 }
  | 0x40 => (.ok, { s with hp := { s.hp with admCtrl := keepBits v 1 0 } })
  | 0x48 => hpIdle s (poolWrite v)
  | 0x88 => hpIdle s fun h => { h with ringCfg := keepBits v 63 36 ||| keepBits v 31 0 }
  | 0xA8 => actions v [(0, clr hpClrReq), (1, clr hpClrEmit), (2, clr hpClrLink)] s
  | 0xB8 => nepCmdWrite v s
  | 0xC0 => (.ok, { s with hp := { s.hp with nepWord := v } })
  | _ =>
    if inArray off 0x50 8 4 then hpIdle s fun h => { h with cls := vset h.cls (idxOf off 0x50 8) (keepBits v 63 21 ||| keepBits v 19 0) }
    else if inArray off 0x1000 32 16 then sectWrite (off - 0x1000) v s
    else if inArray off 0x1200 8 16 then (.ok, hpRcredWrite (BitVec.ofNat 4 (idxOf off 0x1200 8)) v s)
    else if (hpRead s.hp off).1 = .ok then ignored s else noRegister s

/-- FI_VC_CFG (R346). -/
def vcCfgWrite (v : Word) (s : State) : Effect :=
  let xoff := fld v 45 32
  refuseIf (decide (xoff ≤ fld v 13 0 ∨ 1024 < xoff)) .range s
    (.ok, { s with fi := { s.fi with vcCfg := keepBits v 45 32 ||| keepBits v 13 0 } })

/-- FI_PKEYk (R346). -/
def pkeyWrite (i : Nat) (v : Word) (s : State) : Effect :=
  lockable s (refuseIf (bit v 63 && fld v 15 0 == 0) .range s
    (.ok, { s with fi := { s.fi with pkey := vset s.fi.pkey i (keepBits v 63 63 ||| keepBits v 15 0) } }))

/-- FI_RT_CTRL (R346). -/
def rtCtrlWrite (v : Word) (s : State) : Effect :=
  if bit v 0 && bit v 1 then (.refused .state, s) else actions v [(0, rtFlip), (1, rtCopy)] s

def fiWrite (off : Nat) (v : Word) (s : State) : Effect :=
  match off with
  | 0x00 => (.ok, { s with svc := BitVec.ofNat 16 (fld v 47 32) })
  | 0x08 => actions v [(0, fiTrain), (1, fiCheck)] s
  | 0x10 => lockable s (.ok, { s with fi := { s.fi with portMap := keepBits v 0 0 } })
  | 0x18 => (.ok, { s with fi := { s.fi with laneCfg := v } })
  | 0x20 => vcCfgWrite v s
  | 0x48 => rtCtrlWrite v s
  | 0x68 => (.ok, { s with fi := { s.fi with timeCfg := keepBits v 63 47 ||| keepBits v 31 8 } })
  | 0x78 => (.ok, { s with fi := { s.fi with teleCfg := keepBits v 31 0 } })
  | 0x80 => actions v [(0, clr fiClrRt), (1, clr fiClrIng), (2, clr fiClrLink)] s
  | _ =>
    if inArray off 0x28 8 4 then pkeyWrite (idxOf off 0x28 8) v s
    else if inArray off 0x1000 0x200 8 && off % 0x200 == 8 then
      lockable s (.ok, s.modPort (idxOf off 0x1000 0x200) fun p => { p with expect := keepBits v 63 24 })
    else if (fiRead s off).1 = .ok then ignored s else noRegister s

/-- PN_ARB_BURST (R276). -/
def burstWrite (v : Word) (s : State) : Effect :=
  let good (n : Nat) : Bool := decide (1 ≤ n ∧ n ≤ 256)
  refuseIf (!(good (fld v 40 32) && good (fld v 24 16) && good (fld v 8 0))) .range s
    (.ok, { s with pn := { s.pn with arbBurst := keepBits v 40 32 ||| keepBits v 24 16 ||| keepBits v 8 0 } })

/-- Whether PN_ARB_SEL names an arbiter of R266. -/
def arbSelOk (v : Word) : Bool :=
  let i := fld v 11 0
  match fld v 15 12 with
  | 0 => decide (i < 2048 ∧ i % 8 < 5)
  | 1 | 2 => decide (i < 256)
  | 3 | 4 => decide (i < 4)
  | _ => false

/-- The PN registers; the priority registers take writes in LIVE_PRIORITY only (R272, R276). -/
def pnWrite (off : Nat) (v : Word) (s : State) : Effect :=
  match off with
  | 0x00 => lockable s (.ok, { s with pn := { s.pn with arbMode := bit v 0 } })
  | 0x08 => burstWrite v s
  | 0x10 => refuseIf (!s.pn.arbMode) .mode s (.ok, { s with pn := { s.pn with prioRing := keepBits v 31 0 } })
  | 0x18 => refuseIf (!s.pn.arbMode) .mode s (.ok, { s with pn := { s.pn with prioPort := keepBits v 31 0 } })
  | 0x20 => refuseIf (!s.pn.arbMode) .mode s (.ok, { s with pn := { s.pn with prioBridge := keepBits v 31 0 } })
  | 0x28 => refuseIf (!arbSelOk v) .range s (.ok, { s with pn := { s.pn with arbSel := keepBits v 15 0 } })
  | 0x88 => actions v [(0, clr pnClrHold), (1, clr pnClrArb), (2, clr pnClrEcc)] s
  | _ => if (pnRead s.pn off).1 = .ok then ignored s else noRegister s

/-- A tollgate register but for its configuration (R253): refused while GATHERING. -/
def tgIdle (n : BitVec 8) (s : State) (f : Tollgate → Tollgate) : Effect :=
  refuseIf ((s.tg n.toNat).st == .gathering) .busy s (.ok, s.modTg n.toNat f)

def tgWrite (n : BitVec 8) (off : Nat) (v : Word) (s : State) : Effect :=
  match off with
  | 0x00 => tgCfgWrite n v s
  | 0x50 => actions v [(0, tgReset n)] s
  | _ =>
    if inArray off 0x08 8 4 then tgIdle n s fun t => { t with mask := vset t.mask (idxOf off 0x08 8) v }
    else if inArray off 0x30 8 4 then
      tgIdle n s fun t => { t with peer := vset t.peer (idxOf off 0x30 8) (keepBits v 63 40 ||| keepBits v 31 8) }
    else if (tgRead (s.tg n.toNat) off).1 = .ok then ignored s else noRegister s

def tgBlockWrite (off : Nat) (v : Word) (s : State) : Effect :=
  if off < 0x8000 then tgWrite (BitVec.ofNat 8 (off / 128)) (off % 128) v s
  else if (tgBlockRead s off).1 = .ok then ignored s else noRegister s

/-- TM_WIN (R313). -/
def winWrite (i : Nat) (v : Word) (s : State) : Effect :=
  let loading := s.ws.sets.toList.any fun x => x.copy0 == 1 || x.copy1 == 1
  refuseIf (s.anyRun || loading) .busy s (refuseIf (!windowOk v) .range s
    (.ok, { s with tm := { s.tm with win := vset s.tm.win i (keepBits v 63 21) } }))

def tmWrite (off : Nat) (v : Word) (s : State) : Effect :=
  match off with
  | 0x08 => (.ok, { s with tm := { s.tm with scrubCfg := keepBits v 16 0 } })
  | 0x20 => actions v [(0, clr tmClrPm), (1, clr tmClrCol), (2, clr tmClrEcc)] s
  | _ =>
    if inArray off 0x1000 8 512 then
      (.ok, { s with tm := { s.tm with slotGen := vset s.tm.slotGen (idxOf off 0x1000 8) (BitVec.ofNat 8 (fld v 7 0)) } })
    else if inArray off 0x4000 8 1024 then winWrite (idxOf off 0x4000 8) v s
    else if (tmRead s off).1 = .ok then ignored s else noRegister s

/-- A write of tier memory through the slow path, for a KDMP message (R174). -/
def slowWrite (a : Nat) (v : Word) (s : State) : Effect :=
  let r := slowAccess a true v s
  (r.1.1, r.2)

/-- A management write where the package has not fail-stopped (R426). -/
def liveWrite (a : Nat) (v : Word) (s : State) : Effect :=
  if a < 0x100000 then msWrite a v s
  else if a < 0x200000 then wsWrite (a - 0x100000) v s
  else if a < 0x300000 then ckWrite (a - 0x200000) v s
  else if inArray a 0x0100000000 1 0x100000000 then cuWrite (a - 0x0100000000) v s
  else if inArray a 0x0200000000 1 0x100000000 then hpWrite (a - 0x0200000000) v s
  else if inArray a 0x0300000000 1 0x100000 then fiWrite (a - 0x0300000000) v s
  else if inArray a 0x0300100000 1 0x40000 then rtWrite false (idxOf a 0x0300100000 8) v s
  else if inArray a 0x0300140000 1 0x40000 then rtWrite true (idxOf a 0x0300140000 8) v s
  else if inArray a 0x0400000000 1 0x1000000 then pnWrite (a - 0x0400000000) v s
  else if inArray a 0x0401000000 1 0x1000000 then tgBlockWrite (a - 0x0401000000) v s
  else if inArray a 0x0500000000 1 0x800000 then (.ok, pageMapWrite (BitVec.ofNat 20 (idxOf a 0x0500000000 8)) v s)
  else if inArray a 0x0500800000 1 0x8000 then tmWrite (a - 0x0500800000) v s
  else if inArray a 0x1000000000 0x1000000 256 then
    coreWrite (BitVec.ofNat 8 (idxOf a 0x1000000000 0x1000000)) (a % 0x1000000) v s
  else if inArray a 0x8000000000 tierBytes 2048 then slowWrite a v s
  else noRegister s

/-- A management write of one word (R7, R376): in a fail-stop only the fail-stop record and the resets are accepted. -/
def mgmtWrite (a : Nat) (v : Word) (s : State) : Effect :=
  if a % 8 ≠ 0 then (.refused .align, s)
  else if !s.cu.failstop then liveWrite a v s
  else if inArray a 0x0100000008 8 4 then failRecWrite (idxOf a 0x0100000008 8) v s
  else if a = msCtrlAddr ∧ (bit v 2 || bit v 3) then msCtrlWrite (keepBits v 3 2) s
  else (.refused .failed, s)

/-- MGMT_REGISTER_WRITE (R8). A write of tier memory completes when the column port makes it (R174). -/
def mgmtRegisterWrite (a : Nat) (v : Word) (s : State) : State :=
  if inArray a 0x8000000000 tierBytes 2048 then tierSlowPathAccess (BitVec.ofNat 40 a) true v s
  else
    let (st, s) := mgmtWrite a v s
    s.emit (.mgmt a true st 0)

def execMgmtRegisterWrite (a : BitVec 40) (v : Word) (s : State) : Res := .next (mgmtRegisterWrite a.toNat v s)

/-! ### KDMP register access and telemetry (R418, R419) -/

/-- The byte of a status, in the codes of CQ_SEP.LAST. -/
def statusByte (st : Status) : Byte :=
  match st with
  | .ok => 1
  | .restarted _ => 2
  | .peerReset => 3
  | .endpointGone => 4
  | _ => 5

/-- Reads of addresses in order. -/
def readAll (s : State) (addrs : List Nat) : List Access × State :=
  addrs.foldl (fun r a =>
    let (x, s) := mgmtRead a r.2
    (r.1 ++ [x], s)) ([], s)

/-- REG_READ (R419): statuses, then words. -/
def regRead (k : Kdmp) (a : BitVec 64) (count : Nat) (s : State) : State :=
  sessionRequest 0x20 k s fun s =>
    if count < 1 ∨ 64 < count then ((.refused .range, []), s)
    else
      let (xs, s) := readAll s ((List.range count).map fun i => a.toNat + 8 * i)
      ((.ok, (xs.map fun x => statusByte x.1) ++ (xs.map fun x => wordBytes x.2).flatten), s)

def execRegRead (k : Kdmp) (a : BitVec 64) (count : Nat) (s : State) : Res := .next (regRead k a count s)

/-- REG_WRITE (R419): one status per pair. -/
def regWrite (k : Kdmp) (pairs : List (BitVec 64 × Word)) (s : State) : State :=
  sessionRequest 0x21 k s fun s =>
    if pairs.length < 1 ∨ 64 < pairs.length then ((.refused .range, []), s)
    else
      let r := pairs.foldl (fun (r : List Byte × State) p =>
        let (st, s) := mgmtWrite p.1.toNat p.2 r.2
        (r.1 ++ [statusByte st], s)) ([], s)
      ((.ok, r.1), r.2)

def execRegWrite (k : Kdmp) (pairs : List (BitVec 64 × Word)) (s : State) : Res := .next (regWrite k pairs s)

/-- TELEMETRY_CFG (R418). -/
def telemetryCfg (k : Kdmp) (periodMs : Nat) (addrs : List (BitVec 64)) (s : State) : State :=
  sessionRequest 0x22 k s fun s =>
    if 1024 < addrs.length then ((.refused .range, []), s) else ((.ok, []), s.modMs fun m => { m with periodMs, addrs })

def execTelemetryCfg (k : Kdmp) (periodMs : Nat) (addrs : List (BitVec 64)) (s : State) : Res :=
  .next (telemetryCfg k periodMs addrs s)

/-- TELEMETRY (R418): once per period, milestone time and the value of each configured address. -/
def telemetry (s : State) : State :=
  if s.ms.periodMs = 0 then s
  else
    let now := s.now
    let (xs, s) := readAll s (s.ms.addrs.map fun (a : BitVec 64) => a.toNat)
    s.report 0x23 (wordBytes now ++ (xs.map fun x => wordBytes x.2).flatten)

def execTelemetry (s : State) : Res := .next (telemetry s)

end Sys2Proof.Machine
end

