-- ==== Sys2Proof/Machine/Dispatch.lean ====
section
/-! DEFINITION. One arm for each command. -/

namespace Sys2Proof.Machine

/-- The effect of a command on everything but the queue. -/
def exec (i : Instr) (s : State) : Host.Outcome State Fault Refusal :=
  match i with
  | .nop w => Sys2Proof.Machine.execNop w s
  | .add w => Sys2Proof.Machine.execAdd w s
  | .sub w => Sys2Proof.Machine.execSub w s
  | .mul w => Sys2Proof.Machine.execMul w s
  | .andOp w => Sys2Proof.Machine.execAndOp w s
  | .orOp w => Sys2Proof.Machine.execOrOp w s
  | .xorOp w => Sys2Proof.Machine.execXorOp w s
  | .shl w => Sys2Proof.Machine.execShl w s
  | .shr w => Sys2Proof.Machine.execShr w s
  | .sar w => Sys2Proof.Machine.execSar w s
  | .slt w => Sys2Proof.Machine.execSlt w s
  | .sltu w => Sys2Proof.Machine.execSltu w s
  | .seq w => Sys2Proof.Machine.execSeq w s
  | .minOp w => Sys2Proof.Machine.execMinOp w s
  | .maxOp w => Sys2Proof.Machine.execMaxOp w s
  | .addi w => Sys2Proof.Machine.execAddi w s
  | .andi w => Sys2Proof.Machine.execAndi w s
  | .ori w => Sys2Proof.Machine.execOri w s
  | .xori w => Sys2Proof.Machine.execXori w s
  | .shli w => Sys2Proof.Machine.execShli w s
  | .shri w => Sys2Proof.Machine.execShri w s
  | .sari w => Sys2Proof.Machine.execSari w s
  | .lui w => Sys2Proof.Machine.execLui w s
  | .muli w => Sys2Proof.Machine.execMuli w s
  | .ldn w => Sys2Proof.Machine.execLdn w s
  | .stn w => Sys2Proof.Machine.execStn w s
  | .br w => Sys2Proof.Machine.execBr w s
  | .brc w => Sys2Proof.Machine.execBrc w s
  | .brl w => Sys2Proof.Machine.execBrl w s
  | .ret w => Sys2Proof.Machine.execRet w s
  | .lpSet w => Sys2Proof.Machine.execLpSet w s
  | .lpSetr w => Sys2Proof.Machine.execLpSetr w s
  | .lpBr w => Sys2Proof.Machine.execLpBr w s
  | .tgArrive w => Sys2Proof.Machine.execTgArrive w s
  | .wait w => Sys2Proof.Machine.execWait w s
  | .waitDma w => Sys2Proof.Machine.execWaitDma w s
  | .halt w => Sys2Proof.Machine.execHalt w s
  | .ldsWstream w => Sys2Proof.Machine.execLdsWstream w s
  | .ldsCm w => Sys2Proof.Machine.execLdsCm w s
  | .ldsWriteBeat c path => Sys2Proof.Machine.execLdsWriteBeat c path s
  | .swap w => Sys2Proof.Machine.execSwap w s
  | .mmaLdtd w => Sys2Proof.Machine.execMmaLdtd w s
  | .mmaStream w => Sys2Proof.Machine.execMmaStream w s
  | .mmaList w => Sys2Proof.Machine.execMmaList w s
  | .mmaListEntry c => Sys2Proof.Machine.execMmaListEntry c s
  | .tileCheck c tile => Sys2Proof.Machine.execTileCheck c tile s
  | .tileReplay c tile => Sys2Proof.Machine.execTileReplay c tile s
  | .vaddF32 w => Sys2Proof.Machine.execVaddF32 w s
  | .vsubF32 w => Sys2Proof.Machine.execVsubF32 w s
  | .vmulF32 w => Sys2Proof.Machine.execVmulF32 w s
  | .vfmaF32 w => Sys2Proof.Machine.execVfmaF32 w s
  | .vmaxF32 w => Sys2Proof.Machine.execVmaxF32 w s
  | .vminF32 w => Sys2Proof.Machine.execVminF32 w s
  | .vaddBf16 w => Sys2Proof.Machine.execVaddBf16 w s
  | .vsubBf16 w => Sys2Proof.Machine.execVsubBf16 w s
  | .vmulBf16 w => Sys2Proof.Machine.execVmulBf16 w s
  | .vfmaBf16 w => Sys2Proof.Machine.execVfmaBf16 w s
  | .vmaxBf16 w => Sys2Proof.Machine.execVmaxBf16 w s
  | .vminBf16 w => Sys2Proof.Machine.execVminBf16 w s
  | .vaddI32 w => Sys2Proof.Machine.execVaddI32 w s
  | .vsubI32 w => Sys2Proof.Machine.execVsubI32 w s
  | .vmulI32 w => Sys2Proof.Machine.execVmulI32 w s
  | .vand w => Sys2Proof.Machine.execVand w s
  | .vor w => Sys2Proof.Machine.execVor w s
  | .vxor w => Sys2Proof.Machine.execVxor w s
  | .vshlI32 w => Sys2Proof.Machine.execVshlI32 w s
  | .vshrI32 w => Sys2Proof.Machine.execVshrI32 w s
  | .vmaxI32 w => Sys2Proof.Machine.execVmaxI32 w s
  | .vminI32 w => Sys2Proof.Machine.execVminI32 w s
  | .vcmpltI32 w => Sys2Proof.Machine.execVcmpltI32 w s
  | .vcmpltF32 w => Sys2Proof.Machine.execVcmpltF32 w s
  | .vcmpleF32 w => Sys2Proof.Machine.execVcmpleF32 w s
  | .vcmpeqF32 w => Sys2Proof.Machine.execVcmpeqF32 w s
  | .vsel w => Sys2Proof.Machine.execVsel w s
  | .vcvt w => Sys2Proof.Machine.execVcvt w s
  | .vwadd w => Sys2Proof.Machine.execVwadd w s
  | .vwaddf w => Sys2Proof.Machine.execVwaddf w s
  | .vwrebase w => Sys2Proof.Machine.execVwrebase w s
  | .vwcvt w => Sys2Proof.Machine.execVwcvt w s
  | .vqmx w => Sys2Proof.Machine.execVqmx w s
  | .vdqmx w => Sys2Proof.Machine.execVdqmx w s
  | .vexp2 w => Sys2Proof.Machine.execVexp2 w s
  | .vlog2 w => Sys2Proof.Machine.execVlog2 w s
  | .vrcp w => Sys2Proof.Machine.execVrcp w s
  | .vrsqrt w => Sys2Proof.Machine.execVrsqrt w s
  | .vtanh w => Sys2Proof.Machine.execVtanh w s
  | .vsigm w => Sys2Proof.Machine.execVsigm w s
  | .vshufBfly w => Sys2Proof.Machine.execVshufBfly w s
  | .vshufRot w => Sys2Proof.Machine.execVshufRot w s
  | .vshufBcast w => Sys2Proof.Machine.execVshufBcast w s
  | .vshufShup w => Sys2Proof.Machine.execVshufShup w s
  | .vrand w => Sys2Proof.Machine.execVrand w s
  | .vxs w => Sys2Proof.Machine.execVxs w s
  | .drain w => Sys2Proof.Machine.execDrain w s
  | .vld w => Sys2Proof.Machine.execVld w s
  | .vst w => Sys2Proof.Machine.execVst w s
  | .dmaCopy w => Sys2Proof.Machine.execDmaCopy w s
  | .dmaGather w => Sys2Proof.Machine.execDmaGather w s
  | .dmaPaged w => Sys2Proof.Machine.execDmaPaged w s
  | .dmaDescriptorStart c q => Sys2Proof.Machine.execDmaDescriptorStart c q s
  | .dmaDescriptorDone c q => Sys2Proof.Machine.execDmaDescriptorDone c q s
  | .pageMapLookup c q n => Sys2Proof.Machine.execPageMapLookup c q n s
  | .remoteDmaRequest c q => Sys2Proof.Machine.execRemoteDmaRequest c q s
  | .remoteDmaAck c q => Sys2Proof.Machine.execRemoteDmaAck c q s
  | .chOpen w => Sys2Proof.Machine.execChOpen w s
  | .chAccept w => Sys2Proof.Machine.execChAccept w s
  | .chSend w => Sys2Proof.Machine.execChSend w s
  | .chAck w => Sys2Proof.Machine.execChAck w s
  | .chRead w => Sys2Proof.Machine.execChRead w s
  | .chClose w => Sys2Proof.Machine.execChClose w s
  | .chStat w => Sys2Proof.Machine.execChStat w s
  | .cqOpen w => Sys2Proof.Machine.execCqOpen w s
  | .cqClose w => Sys2Proof.Machine.execCqClose w s
  | .cqJoin w => Sys2Proof.Machine.execCqJoin w s
  | .cqLeave w => Sys2Proof.Machine.execCqLeave w s
  | .cqContrib w => Sys2Proof.Machine.execCqContrib w s
  | .cqMpset w => Sys2Proof.Machine.execCqMpset w s
  | .handshakeRequest p => Sys2Proof.Machine.execHandshakeRequest p s
  | .handshakeWaitExpiry t => Sys2Proof.Machine.execHandshakeWaitExpiry t s
  | .handshakeReply p => Sys2Proof.Machine.execHandshakeReply p s
  | .messageRowArrival p => Sys2Proof.Machine.execMessageRowArrival p s
  | .deliveryResponse p => Sys2Proof.Machine.execDeliveryResponse p s
  | .creditReturn p => Sys2Proof.Machine.execCreditReturn p s
  | .closeNotice p => Sys2Proof.Machine.execCloseNotice p s
  | .peerResetNotice p => Sys2Proof.Machine.execPeerResetNotice p s
  | .creditHoldTimeout c => Sys2Proof.Machine.execCreditHoldTimeout c s
  | .flowHoldTimeout c => Sys2Proof.Machine.execFlowHoldTimeout c s
  | .contributionRowArrival p => Sys2Proof.Machine.execContributionRowArrival p s
  | .roundComplete q => Sys2Proof.Machine.execRoundComplete q s
  | .contributionComplete p => Sys2Proof.Machine.execContributionComplete p s
  | .tollgateArrival c tg => Sys2Proof.Machine.execTollgateArrival c tg s
  | .tollgateRelease tg => Sys2Proof.Machine.execTollgateRelease tg s
  | .tollgateExpiry tg => Sys2Proof.Machine.execTollgateExpiry tg s
  | .cqTgCtrlReset tg => Sys2Proof.Machine.execCqTgCtrlReset tg s
  | .cqTgCfgWrite tg v => Sys2Proof.Machine.execCqTgCfgWrite tg v s
  | .tgArrivedFrame p => Sys2Proof.Machine.execTgArrivedFrame p s
  | .sqCtrlStart c => Sys2Proof.Machine.execSqCtrlStart c s
  | .sqCtrlStop c => Sys2Proof.Machine.execSqCtrlStop c s
  | .sqCtrlResume c => Sys2Proof.Machine.execSqCtrlResume c s
  | .sqCtrlReset c => Sys2Proof.Machine.execSqCtrlReset c s
  | .fenceClose u => Sys2Proof.Machine.execFenceClose u s
  | .fenceTimeout u => Sys2Proof.Machine.execFenceTimeout u s
  | .fabricRequestTimeout n => Sys2Proof.Machine.execFabricRequestTimeout n s
  | .coreFaultEvent c => Sys2Proof.Machine.execCoreFaultEvent c s
  | .faultClassify => Sys2Proof.Machine.execFaultClassify s
  | .programFault svc => Sys2Proof.Machine.execProgramFault svc s
  | .cmAsyncMaskWrite c v => Sys2Proof.Machine.execCmAsyncMaskWrite c v s
  | .cmScrubStart c v => Sys2Proof.Machine.execCmScrubStart c v s
  | .cmScrubComplete c => Sys2Proof.Machine.execCmScrubComplete c s
  | .asyncArrival c a => Sys2Proof.Machine.execAsyncArrival c a s
  | .asyncRowLand c => Sys2Proof.Machine.execAsyncRowLand c s
  | .asyncGuardFire c n => Sys2Proof.Machine.execAsyncGuardFire c n s
  | .mgmtCoreMemoryAccess c a write v => Sys2Proof.Machine.execMgmtCoreMemoryAccess c a write v s
  | .tierSlowPathAccess a write v => Sys2Proof.Machine.execTierSlowPathAccess a write v s
  | .columnPortAsyncRequest col side r => Sys2Proof.Machine.execColumnPortAsyncRequest col side r s
  | .columnPortGuard col side n => Sys2Proof.Machine.execColumnPortGuard col side n s
  | .burstLimitExpiry col side => Sys2Proof.Machine.execBurstLimitExpiry col side s
  | .asyncTransferComplete col side => Sys2Proof.Machine.execAsyncTransferComplete col side s
  | .patrolScrubTick col => Sys2Proof.Machine.execPatrolScrubTick col s
  | .pageMapWrite w v => Sys2Proof.Machine.execPageMapWrite w v s
  | .asyncRowGuard w n => Sys2Proof.Machine.execAsyncRowGuard w n s
  | .rowStall w => Sys2Proof.Machine.execRowStall w s
  | .devSummaryRefresh => Sys2Proof.Machine.execDevSummaryRefresh s
  | .uzlBlockReceive p b => Sys2Proof.Machine.execUzlBlockReceive p b s
  | .ident p f => Sys2Proof.Machine.execIdent p f s
  | .laneDrop p map bseqAt => Sys2Proof.Machine.execLaneDrop p map bseqAt s
  | .laneAck p map bseqAt => Sys2Proof.Machine.execLaneAck p map bseqAt s
  | .laneWindowEnd p lane corrected uncorrectable => Sys2Proof.Machine.execLaneWindowEnd p lane corrected uncorrectable s
  | .laneLockLoss p lane => Sys2Proof.Machine.execLaneLockLoss p lane s
  | .laneAckTimeout p => Sys2Proof.Machine.execLaneAckTimeout p s
  | .blockLockLoss p => Sys2Proof.Machine.execBlockLockLoss p s
  | .fiCtrlTrain => Sys2Proof.Machine.execFiCtrlTrain s
  | .portIdentTimer p locked => Sys2Proof.Machine.execPortIdentTimer p locked s
  | .portTrainTimeout p => Sys2Proof.Machine.execPortTrainTimeout p s
  | .fiCtrlCheck => Sys2Proof.Machine.execFiCtrlCheck s
  | .fiRtCopy => Sys2Proof.Machine.execFiRtCopy s
  | .rtCopyDone => Sys2Proof.Machine.execRtCopyDone s
  | .fiRtFlip => Sys2Proof.Machine.execFiRtFlip s
  | .rtDrainTimeout => Sys2Proof.Machine.execRtDrainTimeout s
  | .telemetryWindow => Sys2Proof.Machine.execTelemetryWindow s
  | .syncPeriod => Sys2Proof.Machine.execSyncPeriod s
  | .syncMsg p => Sys2Proof.Machine.execSyncMsg p s
  | .dreq p => Sys2Proof.Machine.execDreq p s
  | .dresp p => Sys2Proof.Machine.execDresp p s
  | .timeCorrection => Sys2Proof.Machine.execTimeCorrection s
  | .holdoverTimer => Sys2Proof.Machine.execHoldoverTimer s
  | .beatTimer => Sys2Proof.Machine.execBeatTimer s
  | .heartbeatWindowEnd => Sys2Proof.Machine.execHeartbeatWindowEnd s
  | .beat p => Sys2Proof.Machine.execBeat p s
  | .failMsg p => Sys2Proof.Machine.execFailMsg p s
  | .holdMsg p => Sys2Proof.Machine.execHoldMsg p s
  | .reportMsg p => Sys2Proof.Machine.execReportMsg p s
  | .takeover p => Sys2Proof.Machine.execTakeover p s
  | .taken p => Sys2Proof.Machine.execTaken p s
  | .takeoverTimeout => Sys2Proof.Machine.execTakeoverTimeout s
  | .remap p => Sys2Proof.Machine.execRemap p s
  | .spareRestoreComplete => Sys2Proof.Machine.execSpareRestoreComplete s
  | .restored p => Sys2Proof.Machine.execRestored p s
  | .resume p => Sys2Proof.Machine.execResume p s
  | .mirrorTapCopy => Sys2Proof.Machine.execMirrorTapCopy s
  | .mirrorRowArrival p => Sys2Proof.Machine.execMirrorRowArrival p s
  | .mirrorAck p => Sys2Proof.Machine.execMirrorAck p s
  | .mirrorResyncDone => Sys2Proof.Machine.execMirrorResyncDone s
  | .failStop t => Sys2Proof.Machine.execFailStop t s
  | .failRecordRelease => Sys2Proof.Machine.execFailRecordRelease s
  | .wsLoad k b => Sys2Proof.Machine.execWsLoad k b s
  | .wsAbort k wgen => Sys2Proof.Machine.execWsAbort k wgen s
  | .wsManifestFetched r => Sys2Proof.Machine.execWsManifestFetched r s
  | .arm p => Sys2Proof.Machine.execArm p s
  | .armed p => Sys2Proof.Machine.execArmed p s
  | .pinWaitExpiry => Sys2Proof.Machine.execPinWaitExpiry s
  | .goMsg p => Sys2Proof.Machine.execGoMsg p s
  | .drained p => Sys2Proof.Machine.execDrained p s
  | .wsChunkFetched chunk r => Sys2Proof.Machine.execWsChunkFetched chunk r s
  | .wsChunk p => Sys2Proof.Machine.execWsChunk p s
  | .chunkNack p => Sys2Proof.Machine.execChunkNack p s
  | .verified p => Sys2Proof.Machine.execVerified p s
  | .abortLoad p => Sys2Proof.Machine.execAbortLoad p s
  | .retire p => Sys2Proof.Machine.execRetire p s
  | .ethFrameReceive f => Sys2Proof.Machine.execEthFrameReceive f s
  | .hostLinkUp => Sys2Proof.Machine.execHostLinkUp s
  | .hostLinkDown => Sys2Proof.Machine.execHostLinkDown s
  | .requestRecordArrival sec send idx r => Sys2Proof.Machine.execRequestRecordArrival sec send idx r s
  | .hpRcredWrite sec v => Sys2Proof.Machine.execHpRcredWrite sec v s
  | .admissionCycle => Sys2Proof.Machine.execAdmissionCycle s
  | .responseRecordWrite sec role => Sys2Proof.Machine.execResponseRecordWrite sec role s
  | .qpAckTimeout qp => Sys2Proof.Machine.execQpAckTimeout qp s
  | .congestionNotification qp => Sys2Proof.Machine.execCongestionNotification qp s
  | .rateRestore qp => Sys2Proof.Machine.execRateRestore qp s
  | .promptReadComplete slot r => Sys2Proof.Machine.execPromptReadComplete slot r s
  | .noticeOpen n => Sys2Proof.Machine.execNoticeOpen n s
  | .noticeCancel slot => Sys2Proof.Machine.execNoticeCancel slot s
  | .noticeEnd slot => Sys2Proof.Machine.execNoticeEnd slot s
  | .noticeReady slot ep => Sys2Proof.Machine.execNoticeReady slot ep s
  | .noticeTimeout slot => Sys2Proof.Machine.execNoticeTimeout slot s
  | .emitToken r => Sys2Proof.Machine.execEmitToken r s
  | .emitReady r => Sys2Proof.Machine.execEmitReady r s
  | .emitEnd r => Sys2Proof.Machine.execEmitEnd r s
  | .microBatchStart => Sys2Proof.Machine.execMicroBatchStart s
  | .tokenWindowClose slot => Sys2Proof.Machine.execTokenWindowClose slot s
  | .hostPtpFrame f => Sys2Proof.Machine.execHostPtpFrame f s
  | .hpNepAccept ep => Sys2Proof.Machine.execHpNepAccept ep s
  | .hpNepOpen ep => Sys2Proof.Machine.execHpNepOpen ep s
  | .hpNepOpenRelay ep => Sys2Proof.Machine.execHpNepOpenRelay ep s
  | .hpNepCloseSend ep => Sys2Proof.Machine.execHpNepCloseSend ep s
  | .hpNepCloseRecv ep => Sys2Proof.Machine.execHpNepCloseRecv ep s
  | .hello => Sys2Proof.Machine.execHello s
  | .fwBegin src header => Sys2Proof.Machine.execFwBegin src header s
  | .fwData src off code => Sys2Proof.Machine.execFwData src off code s
  | .fwEnd src => Sys2Proof.Machine.execFwEnd src s
  | .fwDownloadTimeout => Sys2Proof.Machine.execFwDownloadTimeout s
  | .sessionOpen keyIdx pub => Sys2Proof.Machine.execSessionOpen keyIdx pub s
  | .sessionProof session pub sig => Sys2Proof.Machine.execSessionProof session pub sig s
  | .sessionTimeout session => Sys2Proof.Machine.execSessionTimeout session s
  | .identity => Sys2Proof.Machine.execIdentity s
  | .attest nonce => Sys2Proof.Machine.execAttest nonce s
  | .regRead k a count => Sys2Proof.Machine.execRegRead k a count s
  | .regWrite k pairs => Sys2Proof.Machine.execRegWrite k pairs s
  | .telemetryCfg k periodMs addrs => Sys2Proof.Machine.execTelemetryCfg k periodMs addrs s
  | .telemetry => Sys2Proof.Machine.execTelemetry s
  | .progLoad k b => Sys2Proof.Machine.execProgLoad k b s
  | .progStart k => Sys2Proof.Machine.execProgStart k s
  | .qpReset k qpn => Sys2Proof.Machine.execQpReset k qpn s
  | .partitionReload k => Sys2Proof.Machine.execPartitionReload k s
  | .partitionRelease k => Sys2Proof.Machine.execPartitionRelease k s
  | .resetWarm k => Sys2Proof.Machine.execResetWarm k s
  | .resetCold k => Sys2Proof.Machine.execResetCold k s
  | .debugUnlock cert => Sys2Proof.Machine.execDebugUnlock cert s
  | .msCtrlKick => Sys2Proof.Machine.execMsCtrlKick s
  | .watchdogExpiry => Sys2Proof.Machine.execWatchdogExpiry s
  | .msCtrlReady => Sys2Proof.Machine.execMsCtrlReady s
  | .msCtrlStartAll => Sys2Proof.Machine.execMsCtrlStartAll s
  | .msCtrlColdReset => Sys2Proof.Machine.execMsCtrlColdReset s
  | .msCtrlWarmReset => Sys2Proof.Machine.execMsCtrlWarmReset s
  | .msCtrlSeal => Sys2Proof.Machine.execMsCtrlSeal s
  | .resetNAssert => Sys2Proof.Machine.execResetNAssert s
  | .resetNRelease strap => Sys2Proof.Machine.execResetNRelease strap s
  | .rootPllLock => Sys2Proof.Machine.execRootPllLock s
  | .configReadComplete r => Sys2Proof.Machine.execConfigReadComplete r s
  | .selfTestComplete bad => Sys2Proof.Machine.execSelfTestComplete bad s
  | .bootPhaseTimeout => Sys2Proof.Machine.execBootPhaseTimeout s
  | .msClkStepWrite v => Sys2Proof.Machine.execMsClkStepWrite v s
  | .clockStepHoldEnd => Sys2Proof.Machine.execClockStepHoldEnd s
  | .pllRelockTimeout => Sys2Proof.Machine.execPllRelockTimeout s
  | .refmonWindowEnd ticks => Sys2Proof.Machine.execRefmonWindowEnd ticks s
  | .refclkStall => Sys2Proof.Machine.execRefclkStall s
  | .pllLockDrop => Sys2Proof.Machine.execPllLockDrop s
  | .msRestEnter => Sys2Proof.Machine.execMsRestEnter s
  | .msRestWake => Sys2Proof.Machine.execMsRestWake s
  | .restWakeRestart => Sys2Proof.Machine.execRestWakeRestart s
  | .tempSample q0 q1 q2 q3 sad => Sys2Proof.Machine.execTempSample q0 q1 q2 q3 sad s
  | .avsPeriod q mv margin => Sys2Proof.Machine.execAvsPeriod q mv margin s
  | .msMscNsRead => Sys2Proof.Machine.execMsMscNsRead s
  | .msMscHostofsWrite v => Sys2Proof.Machine.execMsMscHostofsWrite v s
  | .mgmtRegisterWrite a v => Sys2Proof.Machine.execMgmtRegisterWrite a v s
  | .meCntClrReplayCyc c => Sys2Proof.Machine.execMeCntClrReplayCyc c s
  | .meCntClrChk c => Sys2Proof.Machine.execMeCntClrChk c s
  | .meCntClrDev c => Sys2Proof.Machine.execMeCntClrDev c s
  | .veCntClrDrains c => Sys2Proof.Machine.execVeCntClrDrains c s
  | .veCntClrDev c => Sys2Proof.Machine.execVeCntClrDev c s
  | .sqCntClrRelease c => Sys2Proof.Machine.execSqCntClrRelease c s
  | .sqCntClrDev c => Sys2Proof.Machine.execSqCntClrDev c s
  | .cmCntClrEcc c => Sys2Proof.Machine.execCmCntClrEcc c s
  | .cmCntClrAsync c => Sys2Proof.Machine.execCmCntClrAsync c s
  | .cmCntClrCollide c => Sys2Proof.Machine.execCmCntClrCollide c s
  | .tmDmaClrHold c => Sys2Proof.Machine.execTmDmaClrHold c s
  | .tmCntClrEcc => Sys2Proof.Machine.execTmCntClrEcc s
  | .tmCntClrCol => Sys2Proof.Machine.execTmCntClrCol s
  | .tmCntClrPm => Sys2Proof.Machine.execTmCntClrPm s
  | .cqCntClrRing c => Sys2Proof.Machine.execCqCntClrRing c s
  | .cqCntClrRefused c => Sys2Proof.Machine.execCqCntClrRefused c s
  | .cqCntClrDev c => Sys2Proof.Machine.execCqCntClrDev c s
  | .pnCntClrEcc => Sys2Proof.Machine.execPnCntClrEcc s
  | .pnCntClrArb => Sys2Proof.Machine.execPnCntClrArb s
  | .pnCntClrHold => Sys2Proof.Machine.execPnCntClrHold s
  | .fiCntClrLink => Sys2Proof.Machine.execFiCntClrLink s
  | .fiCntClrIng => Sys2Proof.Machine.execFiCntClrIng s
  | .fiCntClrRt => Sys2Proof.Machine.execFiCntClrRt s
  | .hpCntClrLink => Sys2Proof.Machine.execHpCntClrLink s
  | .hpCntClrEmit => Sys2Proof.Machine.execHpCntClrEmit s
  | .hpCntClrReq => Sys2Proof.Machine.execHpCntClrReq s
  | .cuCntClrMirror => Sys2Proof.Machine.execCuCntClrMirror s
  | .cuCntClrStale => Sys2Proof.Machine.execCuCntClrStale s
  | .cuCntClrCe => Sys2Proof.Machine.execCuCntClrCe s
  | .msWsCntClrStat => Sys2Proof.Machine.execMsWsCntClrStat s
  | .msCntClrKdmp => Sys2Proof.Machine.execMsCntClrKdmp s
  | .msCkCntClrAvs => Sys2Proof.Machine.execMsCkCntClrAvs s
  | .msCkCntClrRefmon => Sys2Proof.Machine.execMsCkCntClrRefmon s
  | .msCkCntClrChanges => Sys2Proof.Machine.execMsCkCntClrChanges s
  | .progLoadComplete r => Sys2Proof.Machine.execProgLoadComplete r s
  | .powerDown => Sys2Proof.Machine.execPowerDown s

end Sys2Proof.Machine
end

