-- ==== Sys2Proof/Machine/Idle.lean ====
section
/-! DEFINITION. The idle tick: what time does when no command waits (log entry 1). -/

namespace Sys2Proof.Machine

/-- Two a-cycles of a core at which nothing is under way: SQ_CYCLE counts them in RUN (R148), and a release wait its own (R136). -/
def CoreSt.idle (k : CoreSt) : CoreSt :=
  let k := if k.sq.st = .run ∧ k.sq.release.isSome then
      { k with sq := { k.sq with releaseCyc := satWord k.sq.releaseCyc 2 } } else k
  k.sweepDma.bulk 2

/-- Whether a core has more to do in an a-cycle than to count it. -/
def State.lively (s : State) (c : CoreId) : Bool := (s.core c).sq.waiting || !s.still c

/-- Two a-cycles of a core at which something is under way, in every state (R144): a bundle that waits is evaluated in each (R124). -/
def State.idleCore (s : State) (c : CoreId) : State :=
  let s := if (s.core c).sq.st = .run ∧ (s.core c).sq.release.isSome ∧ !(s.core c).sq.waiting then
      s.modSq c fun q => { q with releaseCyc := satWord q.releaseCyc 2 } else s
  representBundle (representBundle s c) c

/-- Stalled channels of a port gain the a-cycles of the tick (R345). -/
def FiPort.idle (p : FiPort) : FiPort :=
  { p with vcs := p.vcs.mapIdx fun v x =>
      if bit p.xoffTx v ∧ p.egress.any (fun k => k.vc.toNat == v) then { x with stallNow := x.stallNow + 2 } else x }

/-- One c-cycle, two a-cycles (R468), passes (R436, R467, log entry 1); in a hold of R432, one REFCLK period. The milestone counter advances. The
cores and the package network count two a-cycles unless their clocks stand still: in a fail-stop (R375), a hold (R432) or
REST (R442). -/
def idle (s : State) : State :=
  let s := { s with ck := { s.ck.tick with thermNow := false } }
  let ports := s.fi.ports.map FiPort.idle
  if s.cu.failstop then s
  else if s.ck.hold.isSome || s.ck.rest then { s with fi := { s.fi with ports } }
  else
    let busy := coreIds.filter s.lively
    let s : State := { s with
      pn := { s.pn with acyc := s.pn.acyc + 2 }
      cores := s.cores.mapIdx fun i k => if busy.contains (BitVec.ofNat 8 i) then k else k.idle
      fi := { s.fi with ports } }
    busy.foldl State.idleCore s

end Sys2Proof.Machine
end

