-- ==== Sys2Proof/Safety.lean ====
section
/-! DEFINITION. The terms in which claims are made: a core that can issue, a bundle of one word that issues, what its issue
leaves, canonical memories, and a package that works. -/

namespace Sys2Proof

open Sys2Proof.Machine

/-- The slot word of a presented command whose opcode is `op`. -/
def Issue.word (i : Issue) (op : BitVec 8) : SlotWord := { slot := i.slot, opcode := op, bits := i.bits }

namespace Machine

/-- The package works: no fail-stop has happened (R375) and the arithmetic clocks are not held (R432). -/
def State.works (s : State) : Prop := s.cu.failstop = false ∧ s.ck.hold = none

/-- A core that issues what it is presented: it is not fused off (R19), the package works, it is in RUN (R143) and no replay
freezes it (R84). -/
def State.canIssue (s : State) (c : CoreId) : Prop :=
  s.fusedOff c = false ∧ s.works ∧ (s.core c).sq.st = .run ∧ (s.core c).frozen = false

/-- The state in which the scoreboard judges a C slot: a CH.SEND that does not fit before the ring end has sent its PAD record
(R233). -/
def State.padded (s : State) (op : BitVec 8) (i : Issue) : State :=
  if (i.word op).active = true ∧ i.slot = 7 then channelPad s i.core op.toNat i.bits else s

/-- The command presents a bundle of its one word, and that bundle issues: it has no fault (R126), no hold (R137) and its
instruction-memory row no error (R169). -/
def IssuesAlone (op : BitVec 8) (i : Issue) (s : State) : Prop :=
  s.canIssue i.core ∧ (s.core i.core).sq.bundle = [] ∧ i.last = true
    ∧ bundleFaults s i.core [i.word op] = []
    ∧ bundleHolds (s.padded op i) i.core [i.word op] = []
    ∧ regHolds ((s.padded op i).core i.core) (i.word op) = []
    ∧ unitHolds (s.padded op i) i.core (i.word op) = []
    ∧ errsIn (s.padded op i) .imem i.core (64 * ((s.padded op i).core i.core).sq.pc.toNat)
        (64 * ((s.padded op i).core i.core).sq.pc.toNat + 64) = []

/-- What a bundle leaves that issues on a core: it leaves the sequencer, its slots take effect, their accesses to banks and ports are to be
served, the a-cycle of issue passes, the program counter moves on, or a HALT ends the run, what the C slot does in the next a-cycle is
done, and the a-cycles pass that a branch or WAIT adds (R124, R127, R148, R156). -/
def State.issued (s : State) (c : CoreId) (n : NextPc) (effect late : State → State) (asks : List MemAsk := []) : State :=
  (late ((((effect (s.modCore c CoreSt.dispatched)).ask c asks).pass c 1).modCore c (·.advanceTo n))).pass c n.idle

/-- Nothing at a core is under way but what its count of a-cycles moves, no bank of it is kept beyond the present a-cycle, and no stored
code has an error: what an instruction does there is then seen apart from everything else. -/
def State.calm (s : State) (c : CoreId) : Prop :=
  s.still c = true ∧ s.errs = [] ∧ ∀ e ∈ (s.core c).cm.inUse, e.1 ≤ (s.core c).sq.clk

/-! ### What an instruction leaves alone -/

/-- A core keeps the registers of its program, but for those with the numbers `ns` (R123). -/
def keepsRegs (c : CoreId) (ns : List Nat) (s t : State) : Prop := ∀ n, n < 68 → n ∉ ns → readU t c n = readU s c n

/-- A core's sequencer keeps its fault, its program and what it has sent. -/
def CoreSt.keepsSq (j k : CoreSt) : Prop :=
  k.sq.fault = j.sq.fault ∧ k.sq.imem = j.sq.imem ∧ k.sq.startPc = j.sq.startPc ∧ k.sq.st = j.sq.st

/-- A core's matrix engine keeps its memories, sets, descriptors, finished tiles and records. -/
def CoreSt.keepsMe (j k : CoreSt) : Prop :=
  k.me.acc = j.me.acc ∧ k.me.abuf = j.me.abuf ∧ k.me.ascale = j.me.ascale ∧ k.me.active = j.me.active ∧ k.me.stirrup = j.me.stirrup
    ∧ k.me.fresh = j.me.fresh ∧ k.me.td = j.me.td ∧ k.me.ftq = j.me.ftq ∧ k.me.fault = j.me.fault ∧ k.me.chkCnt = j.me.chkCnt

/-- A core's vector engine keeps its operand store and its status. -/
def CoreSt.keepsVe (j k : CoreSt) : Prop :=
  k.ve.vob = j.ve.vob ∧ k.ve.sticky = j.ve.sticky ∧ k.ve.drainStatus = j.ve.drainStatus ∧ k.ve.fault = j.ve.fault

/-- A core keeps its core memory, the mask of its async banks, and the records of errors and collisions. -/
def CoreSt.keepsCm (j k : CoreSt) : Prop :=
  k.cm.mem = j.cm.mem ∧ k.cm.asyncMask = j.cm.asyncMask ∧ k.cm.asyncBuf = j.cm.asyncBuf ∧ k.cm.collide = j.cm.collide
    ∧ k.cm.collideFirst = j.cm.collideFirst ∧ k.cm.eccCnt = j.cm.eccCnt ∧ k.cm.eccFirst = j.cm.eccFirst

/-- A core's DMA queues keep their counts, and the DMA its fault. -/
def CoreSt.keepsDma (j k : CoreSt) : Prop :=
  k.dma.fault = j.dma.fault ∧ ∀ q, (vget k.dma.queues q).issued = (vget j.dma.queues q).issued
    ∧ (vget k.dma.queues q).done = (vget j.dma.queues q).done

/-- A core keeps its channel endpoints, handles, combining queues and mileposts. -/
def CoreSt.keepsCq (j k : CoreSt) : Prop :=
  k.cq.send = j.cq.send ∧ k.cq.recv = j.cq.recv ∧ k.cq.handles = j.cq.handles ∧ k.cq.queues = j.cq.queues
    ∧ k.cq.mpCurrent = j.cq.mpCurrent ∧ k.cq.mpStaged = j.cq.mpStaged ∧ k.cq.fault = j.cq.fault

/-- A core keeps everything of the above but its program's registers. -/
def CoreSt.keepsUnits (j k : CoreSt) : Prop :=
  j.keepsSq k ∧ j.keepsMe k ∧ j.keepsVe k ∧ j.keepsCm k ∧ j.keepsDma k ∧ j.keepsCq k

/-- Nothing outside a core changes. -/
def State.onlyCore (s t : State) (c : CoreId) : Prop := (∀ d, d ≠ c → t.core d = s.core d) ∧ { t with cores := s.cores } = s

/-- What an instruction of a calm core leaves that writes registers with the numbers `ns` only, and goes on at bundle n: everything else
keeps its value. -/
def State.plainly (s t : State) (c : CoreId) (ns : List Nat) (n : Nat) : Prop :=
  keepsRegs c ns s t ∧ (s.core c).keepsUnits (t.core c) ∧ s.onlyCore t c ∧ (t.core c).sq.pc.toNat = n

/-- Two VOB regions whose chunks do not meet, but for chunks of one number. -/
def Region.apart (r w : Region) : Prop := r.base + r.total ≤ w.base ∨ w.base + w.total ≤ r.base ∨ (r.base = w.base ∧ r.per = w.per)

/-- A vector instruction has issued on a calm core, from s to t; when its last chunk has landed, the VOB holds what the chunks write, the
sticky flags are those of all chunks besides, and nothing else has changed (R93 to R95, R98). Chunks after the first read what the VOB held
at issue as long as no result lies over a later chunk's operands. -/
def State.lands (s t : State) (c : CoreId) (lat chunks : Nat) (reads writes : List Region) (out : Nat → ChunkResult) : Prop :=
  s.calm c → (chunks ≤ 1 ∨ ∀ r ∈ reads, ∀ w ∈ writes, r.apart w) →
    let u := t.pass c (lat + chunks - 1)
    let k := s.core c
    (u.core c).ve.vob = applyWrites k.ve.vob ((List.range chunks).flatMap fun n => (out n).1)
      ∧ (u.core c).ve.sticky = k.ve.sticky ||| (((List.range chunks).map fun n => (out n).2).foldl VFlags.or {}).sticky
      ∧ keepsRegs c [] s u ∧ k.keepsSq (u.core c) ∧ k.keepsMe (u.core c) ∧ k.keepsCm (u.core c) ∧ k.keepsDma (u.core c)
      ∧ k.keepsCq (u.core c) ∧ s.onlyCore u c

/-- The command that presents a slot word with an opcode (the opcode tables of R97, R122, R130, R133, R218 and the tables of the
M and D slots); none for an opcode that no table lists. -/
def slotInstr (op : BitVec 8) (i : Issue) : Option Instr :=
  match op.toNat with
  | 0x00 => some (.nop i)
  | 0x01 => some (.add i)
  | 0x02 => some (.sub i)
  | 0x03 => some (.mul i)
  | 0x04 => some (.andOp i)
  | 0x05 => some (.orOp i)
  | 0x06 => some (.xorOp i)
  | 0x07 => some (.shl i)
  | 0x08 => some (.shr i)
  | 0x09 => some (.sar i)
  | 0x0A => some (.slt i)
  | 0x0B => some (.sltu i)
  | 0x0C => some (.seq i)
  | 0x0D => some (.minOp i)
  | 0x0E => some (.maxOp i)
  | 0x10 => some (.addi i)
  | 0x11 => some (.andi i)
  | 0x12 => some (.ori i)
  | 0x13 => some (.xori i)
  | 0x14 => some (.shli i)
  | 0x15 => some (.shri i)
  | 0x16 => some (.sari i)
  | 0x17 => some (.lui i)
  | 0x18 => some (.muli i)
  | 0x1C => some (.ldn i)
  | 0x1D => some (.stn i)
  | 0x80 => some (.br i)
  | 0x81 => some (.brc i)
  | 0x82 => some (.brl i)
  | 0x83 => some (.ret i)
  | 0x84 => some (.lpSet i)
  | 0x85 => some (.lpSetr i)
  | 0x86 => some (.lpBr i)
  | 0x88 => some (.tgArrive i)
  | 0x89 => some (.wait i)
  | 0x8A => some (.waitDma i)
  | 0x8F => some (.halt i)
  | 0x31 => some (.ldsWstream i)
  | 0x32 => some (.ldsCm i)
  | 0x23 => some (.swap i)
  | 0x24 => some (.mmaLdtd i)
  | 0x21 => some (.mmaStream i)
  | 0x22 => some (.mmaList i)
  | 0x40 => some (.vaddF32 i)
  | 0x41 => some (.vsubF32 i)
  | 0x42 => some (.vmulF32 i)
  | 0x43 => some (.vfmaF32 i)
  | 0x44 => some (.vmaxF32 i)
  | 0x45 => some (.vminF32 i)
  | 0x48 => some (.vaddBf16 i)
  | 0x49 => some (.vsubBf16 i)
  | 0x4A => some (.vmulBf16 i)
  | 0x4B => some (.vfmaBf16 i)
  | 0x4C => some (.vmaxBf16 i)
  | 0x4D => some (.vminBf16 i)
  | 0x50 => some (.vaddI32 i)
  | 0x51 => some (.vsubI32 i)
  | 0x52 => some (.vmulI32 i)
  | 0x53 => some (.vand i)
  | 0x54 => some (.vor i)
  | 0x55 => some (.vxor i)
  | 0x56 => some (.vshlI32 i)
  | 0x57 => some (.vshrI32 i)
  | 0x58 => some (.vmaxI32 i)
  | 0x59 => some (.vminI32 i)
  | 0x5B => some (.vcmpltI32 i)
  | 0x5C => some (.vcmpltF32 i)
  | 0x5D => some (.vcmpleF32 i)
  | 0x5E => some (.vcmpeqF32 i)
  | 0x5F => some (.vsel i)
  | 0x60 => some (.vcvt i)
  | 0x61 => some (.vwadd i)
  | 0x62 => some (.vwaddf i)
  | 0x63 => some (.vwrebase i)
  | 0x66 => some (.vwcvt i)
  | 0x64 => some (.vqmx i)
  | 0x65 => some (.vdqmx i)
  | 0x68 => some (.vexp2 i)
  | 0x69 => some (.vlog2 i)
  | 0x6A => some (.vrcp i)
  | 0x6B => some (.vrsqrt i)
  | 0x6C => some (.vtanh i)
  | 0x6D => some (.vsigm i)
  | 0x70 => some (.vshufBfly i)
  | 0x71 => some (.vshufRot i)
  | 0x72 => some (.vshufBcast i)
  | 0x73 => some (.vshufShup i)
  | 0x74 => some (.vrand i)
  | 0x76 => some (.vxs i)
  | 0x78 => some (.drain i)
  | 0x7C => some (.vld i)
  | 0x7D => some (.vst i)
  | 0x33 => some (.dmaCopy i)
  | 0x34 => some (.dmaGather i)
  | 0x35 => some (.dmaPaged i)
  | 0xA0 => some (.chOpen i)
  | 0xA1 => some (.chAccept i)
  | 0xA2 => some (.chSend i)
  | 0xA3 => some (.chAck i)
  | 0xA4 => some (.chRead i)
  | 0xA5 => some (.chClose i)
  | 0xA6 => some (.chStat i)
  | 0xA8 => some (.cqOpen i)
  | 0xA9 => some (.cqClose i)
  | 0xAA => some (.cqJoin i)
  | 0xAB => some (.cqLeave i)
  | 0xAC => some (.cqContrib i)
  | 0xAD => some (.cqMpset i)
  | _ => none

/-- The bundle after the present one. -/
def State.after (s : State) (c : CoreId) : NextPc := { pc := (s.core c).sq.pc.toNat + 1 }

/-- A packet reaches the target that a command hands it to (R274, R321, R329, R333, R334, R432): the package works; its row meets no code
error; the packet is the first of its flow on the package, or it comes off a fabric port that is UP; and one from the fabric passes the checks of the
router: its key is valid, its kind and unit exist, it names this package and its incarnation. -/
def Receives (p : Pkt) (s : State) : Prop :=
  s.works ∧ rowErrs s p = []
    ∧ (s.net.find? p.sameFlow = some p ∨ (p.fabric = true ∧ (vget s.fi.ports p.port.toNat).st = .up))
    ∧ (p.fabric = true →
        (s.fi.pkey.toList.any fun w => bit w 63 && fld w 15 0 != 0 && fld w 15 0 == p.pkey.toNat) = true
        ∧ p.kind ≠ .reserved ∧ (p.dsad = true → p.dstUnit.toNat ≤ 5) ∧ p.dstChip = s.chip ∧ p.dstSvc = s.svc
        ∧ (p.dstPinc = 0 ∨ p.dstPinc = s.pinc))

/-- What the arrival of a packet leaves before its target acts: the packet is off the package's network or out of its ingress
buffer; from the fabric, a response has ended the wait for it (R338), and the router's row for a core has taken its way to the stop
(R339). -/
def State.received (s : State) (p : Pkt) : State :=
  let t := if s.net.find? p.sameFlow == some p then { s with net := s.net.erase p } else s.takeIngress p
  if p.fabric then (if p.kind = .resp then t.settle p else t).delivered p else t

/-- What a continuity message leaves before it acts: it has been received, and its sender has been heard in the running window
(R383). -/
def State.heard (s : State) (p : Pkt) : State :=
  match watchOf s p.srcSvc with
  | some i => (s.received p).modWatch i fun w => { w with seen := true }
  | none => s.received p

/-- A KDMP request under a session that firmware takes up (R416 to R418): firmware runs, the session is open and proved, the
request carries its tag, and its SEQ comes after the one answered last. -/
def Authentic (k : Kdmp) (s : State) : Prop :=
  s.firmwareRuns = true ∧ ∃ x key, s.session k.session = some x ∧ x.key = some key ∧ k.auth = true
    ∧ (hmac384 key k.msg).take 16 = k.tag
    ∧ match x.kept with
      | some (_, seq, _, _) => seq.toNat < k.seq.toNat
      | none => True

/-- What the answer to such a request leaves: the session keeps its SEQ and its response, and the response leaves. -/
def State.answered (s : State) (kind : Nat) (k : Kdmp) (a : Answer) : State :=
  (s.modSession k.session fun x => { x with lastSeq := some k.seq, kept := some (kind, k.seq, a.1, a.2) }).respond
    kind k.session k.seq a

/-- The record at the head of the emit ring is a good record of a kind with the fields of the command, and its row has no error
(R364). -/
def State.emits (s : State) (kind : Nat) (r : EmitRec) : Prop :=
  let x := s.recvEp (emitHome s) (emitEp s)
  let c : CoreId := BitVec.ofNat 8 (fld s.hp.ringCfg 49 42)
  ∃ b seq, emitHead s = some (b, seq) ∧ x.peer.unit = r.core ∧ emitMatches b r = true ∧ recFld b 0 1 = kind
    ∧ emitBad s kind r = false
    ∧ errsIn s .cm c ((x.base + x.rptr) / 256 * 256) (ceilTo (x.base + x.rptr + 256) 256) = []

/-- Whether a write of a management word starts a package reset (R406, R427). -/
def resetWrite (a : Nat) (v : Word) : Bool := a == 0x10 && (bit v 2 || bit v 3)

/-- The commands that reset the package or take its power (R406, R456, R460). -/
def resets (c : Instr) : Bool :=
  match c with
  | .resetNAssert => true
  | .resetNRelease _ => true
  | .powerDown => true
  | .resetWarm _ => true
  | .resetCold _ => true
  | .msCtrlColdReset => true
  | .msCtrlWarmReset => true
  | .mgmtRegisterWrite a v => resetWrite a.toNat v
  | .regWrite _ pairs => pairs.any fun p => resetWrite p.1.toNat p.2
  | _ => false

/-- The memories of a core are canonical. -/
def CoreSt.memsWf (k : CoreSt) : Prop :=
  Mem.wf k.sq.imem ∧ Mem.wf k.me.acc ∧ Mem.wf k.me.abuf ∧ Mem.wf k.me.ascale ∧ Mem.wf k.ve.vob ∧ Mem.wf k.cm.mem

/-- Every memory of the device is canonical. -/
def State.memsWf (s : State) : Prop :=
  (∀ c, (s.core c).memsWf) ∧ Mem.wf s.tier ∧ Mem.wf s.pageMap ∧ Mem.wf s.sqStore ∧ Mem.wf s.fi.rtA ∧ Mem.wf s.fi.rtB
    ∧ Mem.wf s.hp.notice ∧ Mem.wf s.hp.ring

end Machine

end Sys2Proof
end

