-- ==== Sys2Proof/WellFormed.lean ====
section
/-! DEFINITION. Well-formed commands: what the layouts of the manual admit as operands. No meaning tests it. -/

namespace Sys2Proof

/-- At most eight BODY flits of 32 bytes (R328). -/
def Pkt.wf (p : Pkt) : Bool := p.body.length % 32 == 0 && decide (p.body.length ≤ 256)

/-- A well-formed packet of one of the kinds (R330). -/
def Pkt.isKind (p : Pkt) (ks : List PktKind) : Bool := p.wf && ks.contains p.kind

/-- A write brings its bytes, a read none (R161). -/
def AsyncAccess.wf (a : AsyncAccess) : Bool :=
  if a.write then a.data.length == a.len && decide (0 < a.len) else a.data.isEmpty && decide (0 < a.len)

/-- An asynchronous requester of a column port (R266), with at least one beat, at an address that names a byte (R173). -/
def PortReq.wf (r : PortReq) : Bool :=
  decide (8 ≤ r.requester.toNat ∧ r.requester.toNat ≤ 12) && decide (0 < r.beats) && decide (r.ta.toNat % 2 ^ 26 < 0x3000000)

/-- Eight flit slots to a block (R316); each HEAD or BODY flit belongs to a channel. -/
def UzlBlock.wf (b : UzlBlock) : Bool :=
  decide (b.lane.toNat < 12) && decide (b.heads + b.bodies ≤ 8) && (b.flits.map (·.2)).sum == b.heads + b.bodies

/-- The envelope of R416: a tag of 16 bytes. -/
def Kdmp.wf (k : Kdmp) : Bool := k.tag.length == 16

/-- A bundle header of 512 bytes (R296). -/
def fetchedWf : Option FetchedManifest → Bool
  | some f => f.header.length == 512
  | none => true

/-- A prompt that has been read holds a token (R354). -/
def tokensWf : Option (List (BitVec 32)) → Bool
  | some ts => !ts.isEmpty
  | none => true

/-- Coordinates of 384 bits (R295). -/
def Point.wf (p : Point) : Bool := decide (p.x < 2 ^ 384) && decide (p.y < 2 ^ 384)
def Sig.wf (g : Sig) : Bool := decide (g.r < 2 ^ 384) && decide (g.s < 2 ^ 384)

/-- Bundles of 64 bytes (R121). -/
def CoreImage.wf (i : CoreImage) : Bool := i.bundles.all fun b => b.2.length == 64

/-- Four mask words and four peer words to a tollgate (R253), 48 bytes to a layout digest (R296). -/
def ProgSections.wf (p : ProgSections) : Bool :=
  p.images.all CoreImage.wf && p.tollgates.all (fun t => t.2.2.1.length == 4 && t.2.2.2.length == 4)
    && p.sets.all fun x => x.2.2.length == 48

def ProgBundle.wf (b : ProgBundle) : Bool :=
  fetchedWf b.fetched && (b.sections.all fun x => x.2.wf) && b.digests.all fun d => d.length == 48

/-- Well-formed commands. -/
def Instr.wf (i : Instr) : Bool :=
  match i with
  | .nop _ => true
  | .add _ => true
  | .sub _ => true
  | .mul _ => true
  | .andOp _ => true
  | .orOp _ => true
  | .xorOp _ => true
  | .shl _ => true
  | .shr _ => true
  | .sar _ => true
  | .slt _ => true
  | .sltu _ => true
  | .seq _ => true
  | .minOp _ => true
  | .maxOp _ => true
  | .addi _ => true
  | .andi _ => true
  | .ori _ => true
  | .xori _ => true
  | .shli _ => true
  | .shri _ => true
  | .sari _ => true
  | .lui _ => true
  | .muli _ => true
  | .ldn _ => true
  | .stn _ => true
  | .br _ => true
  | .brc _ => true
  | .brl _ => true
  | .ret _ => true
  | .lpSet _ => true
  | .lpSetr _ => true
  | .lpBr _ => true
  | .tgArrive _ => true
  | .wait _ => true
  | .waitDma _ => true
  | .halt _ => true
  | .ldsWstream _ => true
  | .ldsCm _ => true
  | .ldsWriteBeat _ _ => true
  | .swap _ => true
  | .mmaLdtd _ => true
  | .mmaStream _ => true
  | .mmaList _ => true
  | .mmaListEntry _ => true
  | .tileCheck _ _ => true
  | .tileReplay _ _ => true
  | .vaddF32 _ => true
  | .vsubF32 _ => true
  | .vmulF32 _ => true
  | .vfmaF32 _ => true
  | .vmaxF32 _ => true
  | .vminF32 _ => true
  | .vaddBf16 _ => true
  | .vsubBf16 _ => true
  | .vmulBf16 _ => true
  | .vfmaBf16 _ => true
  | .vmaxBf16 _ => true
  | .vminBf16 _ => true
  | .vaddI32 _ => true
  | .vsubI32 _ => true
  | .vmulI32 _ => true
  | .vand _ => true
  | .vor _ => true
  | .vxor _ => true
  | .vshlI32 _ => true
  | .vshrI32 _ => true
  | .vmaxI32 _ => true
  | .vminI32 _ => true
  | .vcmpltI32 _ => true
  | .vcmpltF32 _ => true
  | .vcmpleF32 _ => true
  | .vcmpeqF32 _ => true
  | .vsel _ => true
  | .vcvt _ => true
  | .vwadd _ => true
  | .vwaddf _ => true
  | .vwrebase _ => true
  | .vwcvt _ => true
  | .vqmx _ => true
  | .vdqmx _ => true
  | .vexp2 _ => true
  | .vlog2 _ => true
  | .vrcp _ => true
  | .vrsqrt _ => true
  | .vtanh _ => true
  | .vsigm _ => true
  | .vshufBfly _ => true
  | .vshufRot _ => true
  | .vshufBcast _ => true
  | .vshufShup _ => true
  | .vrand _ => true
  | .vxs _ => true
  | .drain _ => true
  | .vld _ => true
  | .vst _ => true
  | .dmaCopy _ => true
  | .dmaGather _ => true
  | .dmaPaged _ => true
  | .dmaDescriptorStart _ _ => true
  | .dmaDescriptorDone _ _ => true
  | .pageMapLookup _ _ _ => true
  | .remoteDmaRequest _ _ => true
  | .remoteDmaAck _ _ => true
  | .chOpen _ => true
  | .chAccept _ => true
  | .chSend _ => true
  | .chAck _ => true
  | .chRead _ => true
  | .chClose _ => true
  | .chStat _ => true
  | .cqOpen _ => true
  | .cqClose _ => true
  | .cqJoin _ => true
  | .cqLeave _ => true
  | .cqContrib _ => true
  | .cqMpset _ => true
  | .handshakeRequest p => p.isKind [.chOpen, .join]
  | .handshakeWaitExpiry _ => true
  | .handshakeReply p => p.isKind [.resp]
  | .messageRowArrival p => p.isKind [.chRow]
  | .deliveryResponse p => p.isKind [.resp]
  | .creditReturn p => p.isKind [.credit]
  | .closeNotice p => p.isKind [.resp]
  | .peerResetNotice p => p.isKind [.peerReset]
  | .creditHoldTimeout _ => true
  | .flowHoldTimeout _ => true
  | .contributionRowArrival p => p.isKind [.cqRow]
  | .roundComplete _ => true
  | .contributionComplete p => p.isKind [.resp]
  | .tollgateArrival _ _ => true
  | .tollgateRelease _ => true
  | .tollgateExpiry _ => true
  | .cqTgCtrlReset _ => true
  | .cqTgCfgWrite _ _ => true
  | .tgArrivedFrame p => p.isKind [.tgArrived]
  | .sqCtrlStart _ => true
  | .sqCtrlStop _ => true
  | .sqCtrlResume _ => true
  | .sqCtrlReset _ => true
  | .fenceClose _ => true
  | .fenceTimeout _ => true
  | .fabricRequestTimeout _ => true
  | .coreFaultEvent _ => true
  | .faultClassify => true
  | .programFault _ => true
  | .cmAsyncMaskWrite _ _ => true
  | .cmScrubStart _ _ => true
  | .cmScrubComplete _ => true
  | .asyncArrival _ a => a.wf
  | .asyncRowLand _ => true
  | .asyncGuardFire _ _ => true
  | .mgmtCoreMemoryAccess _ _ _ _ => true
  | .tierSlowPathAccess _ _ _ => true
  | .columnPortAsyncRequest _ _ r => r.wf
  | .columnPortGuard _ _ _ => true
  | .burstLimitExpiry _ _ => true
  | .asyncTransferComplete _ _ => true
  | .patrolScrubTick _ => true
  | .pageMapWrite _ _ => true
  | .asyncRowGuard _ _ => true
  | .rowStall _ => true
  | .devSummaryRefresh => true
  | .uzlBlockReceive _ b => b.wf
  | .ident _ _ => true
  | .laneDrop _ _ _ => true
  | .laneAck _ _ _ => true
  | .laneWindowEnd _ lane _ _ => decide (lane.toNat < 12)
  | .laneLockLoss _ lane => decide (lane.toNat < 12)
  | .laneAckTimeout _ => true
  | .blockLockLoss _ => true
  | .fiCtrlTrain => true
  | .portIdentTimer _ _ => true
  | .portTrainTimeout _ => true
  | .fiCtrlCheck => true
  | .fiRtCopy => true
  | .rtCopyDone => true
  | .fiRtFlip => true
  | .rtDrainTimeout => true
  | .telemetryWindow => true
  | .syncPeriod => true
  | .syncMsg p => p.isKind [.time]
  | .dreq p => p.isKind [.time]
  | .dresp p => p.isKind [.time]
  | .timeCorrection => true
  | .holdoverTimer => true
  | .beatTimer => true
  | .heartbeatWindowEnd => true
  | .beat p => p.isKind [.heartbeat]
  | .failMsg p => p.isKind [.heartbeat]
  | .holdMsg p => p.isKind [.heartbeat]
  | .reportMsg p => p.isKind [.heartbeat]
  | .takeover p => p.isKind [.heartbeat]
  | .taken p => p.isKind [.heartbeat]
  | .takeoverTimeout => true
  | .remap p => p.isKind [.heartbeat]
  | .spareRestoreComplete => true
  | .restored p => p.isKind [.heartbeat]
  | .resume p => p.isKind [.heartbeat]
  | .mirrorTapCopy => true
  | .mirrorRowArrival p => p.isKind [.mirror]
  | .mirrorAck p => p.isKind [.resp]
  | .mirrorResyncDone => true
  | .failStop _ => true
  | .failRecordRelease => true
  | .wsLoad k b => k.wf && b.length == 32 && (k.msg.drop 32).take 32 == b
  | .wsAbort k _ => k.wf
  | .wsManifestFetched r => fetchedWf r
  | .arm p => p.isKind [.wsCtrl]
  | .armed p => p.isKind [.wsCtrl]
  | .pinWaitExpiry => true
  | .goMsg p => p.isKind [.wsCtrl]
  | .drained p => p.isKind [.wsCtrl]
  | .wsChunkFetched _ _ => true
  | .wsChunk p => p.isKind [.wsChunk]
  | .chunkNack p => p.isKind [.wsCtrl]
  | .verified p => p.isKind [.wsCtrl]
  | .abortLoad p => p.isKind [.wsCtrl]
  | .retire p => p.isKind [.wsCtrl]
  | .ethFrameReceive f => decide (f.kind ≤ 3)
  | .hostLinkUp => true
  | .hostLinkDown => true
  | .requestRecordArrival _ send _ r => send || r.length == 256
  | .hpRcredWrite _ _ => true
  | .admissionCycle => true
  | .responseRecordWrite _ _ => true
  | .qpAckTimeout _ => true
  | .congestionNotification _ => true
  | .rateRestore _ => true
  | .promptReadComplete _ r => tokensWf r
  | .noticeOpen n => n.request.length == 256
  | .noticeCancel _ => true
  | .noticeEnd _ => true
  | .noticeReady _ _ => true
  | .noticeTimeout _ => true
  | .emitToken _ => true
  | .emitReady _ => true
  | .emitEnd _ => true
  | .microBatchStart => true
  | .tokenWindowClose _ => true
  | .hostPtpFrame _ => true
  | .hpNepAccept _ => true
  | .hpNepOpen _ => true
  | .hpNepOpenRelay _ => true
  | .hpNepCloseSend _ => true
  | .hpNepCloseRecv _ => true
  | .hello => true
  | .fwBegin _ header => header.length == 512
  | .fwData _ _ code => decide (code.length ≤ 8192)
  | .fwEnd _ => true
  | .fwDownloadTimeout => true
  | .sessionOpen keyIdx pub => decide (keyIdx < 4) && pub.wf
  | .sessionProof _ pub sig => pub.wf && sig.wf
  | .sessionTimeout _ => true
  | .identity => true
  | .attest nonce => nonce.length == 48
  | .regRead k _ _ => k.wf
  | .regWrite k _ => k.wf
  | .telemetryCfg k _ _ => k.wf
  | .telemetry => true
  | .progLoad k b => k.wf && b.wf
  | .progStart k => k.wf
  | .qpReset k _ => k.wf
  | .partitionReload k => k.wf
  | .partitionRelease k => k.wf
  | .resetWarm k => k.wf
  | .resetCold k => k.wf
  | .debugUnlock cert => cert.length == 256
  | .msCtrlKick => true
  | .watchdogExpiry => true
  | .msCtrlReady => true
  | .msCtrlStartAll => true
  | .msCtrlColdReset => true
  | .msCtrlWarmReset => true
  | .msCtrlSeal => true
  | .resetNAssert => true
  | .resetNRelease _ => true
  | .rootPllLock => true
  | .configReadComplete r => decide (r.length ≤ 1048832)
  | .selfTestComplete _ => true
  | .bootPhaseTimeout => true
  | .msClkStepWrite _ => true
  | .clockStepHoldEnd => true
  | .pllRelockTimeout => true
  | .refmonWindowEnd _ => true
  | .refclkStall => true
  | .pllLockDrop => true
  | .msRestEnter => true
  | .msRestWake => true
  | .restWakeRestart => true
  | .tempSample _ _ _ _ _ => true
  | .avsPeriod _ _ _ => true
  | .msMscNsRead => true
  | .msMscHostofsWrite _ => true
  | .mgmtRegisterWrite _ _ => true
  | .meCntClrReplayCyc _ => true
  | .meCntClrChk _ => true
  | .meCntClrDev _ => true
  | .veCntClrDrains _ => true
  | .veCntClrDev _ => true
  | .sqCntClrRelease _ => true
  | .sqCntClrDev _ => true
  | .cmCntClrEcc _ => true
  | .cmCntClrAsync _ => true
  | .cmCntClrCollide _ => true
  | .tmDmaClrHold _ => true
  | .tmCntClrEcc => true
  | .tmCntClrCol => true
  | .tmCntClrPm => true
  | .cqCntClrRing _ => true
  | .cqCntClrRefused _ => true
  | .cqCntClrDev _ => true
  | .pnCntClrEcc => true
  | .pnCntClrArb => true
  | .pnCntClrHold => true
  | .fiCntClrLink => true
  | .fiCntClrIng => true
  | .fiCntClrRt => true
  | .hpCntClrLink => true
  | .hpCntClrEmit => true
  | .hpCntClrReq => true
  | .cuCntClrMirror => true
  | .cuCntClrStale => true
  | .cuCntClrCe => true
  | .msWsCntClrStat => true
  | .msCntClrKdmp => true
  | .msCkCntClrAvs => true
  | .msCkCntClrRefmon => true
  | .msCkCntClrChanges => true
  | .progLoadComplete _ => true
  | .powerDown => true

end Sys2Proof
end

