-- ==== Sys2Proof/Certificates/Slice0/Obligations.lean ====
section
/-! DEFINITION. The statements about the device, for the provers. -/

open Sys2Proof Sys2Proof.Machine

/-- For every command c and state s, a step of s with c at the front of its queue is exec of c on s with the queue's rest. -/
def Obligations.StepRunsFrontCommand : Prop :=
  ∀ (c : Instr) (rest : List Instr) (s : State),
    step { s with pending := c :: rest } = exec c { s with pending := rest }

/-- R122, R127, R135, R136, R143: a NOP takes its a-cycle and does nothing else. WAIT adds its a-cycles, WAIT.DMA awaits a count of a queue,
TG.ARRIVE sends an arrival and may await the release, HALT ends the run in DONE at its own bundle. -/
def Obligations.WaitsAndHalt : Prop :=
  (∀ (i : Issue) (s : State), IssuesAlone 0x00 i s →
     ∃ t, exec (.nop i) s = .next t ∧ t = s.issued i.core (s.after i.core) id id
       ∧ (s.calm i.core → s.plainly t i.core [] ((s.core i.core).sq.pc.toNat + 1) ∧ (t.core i.core).sq.cycle = (s.core i.core).sq.cycle + 1))
  ∧ (∀ (i : Issue) (s : State),
     let c := i.core
     let q := (s.core c).sq
     let tg := BitVec.ofNat 8 (fld i.bits 43 36)
     (IssuesAlone 0x89 i s → ∃ t, exec (.wait i) s = .next t
         ∧ t = s.issued c { pc := q.pc.toNat + 1, idle := fld i.bits 31 0 } id id
         ∧ (s.calm c → s.plainly t c [] (q.pc.toNat + 1) ∧ (t.core c).sq.cycle = q.cycle + BitVec.ofNat 64 (fld i.bits 31 0 + 1)))
     ∧ (IssuesAlone 0x8A i s → ∃ t, exec (.waitDma i) s = .next t ∧ t = s.issued c (s.after c)
           (fun t => t.modSq c fun q => { q with
             waitDma := some (BitVec.ofNat 2 (fld i.bits 34 33), BitVec.ofNat 32 (fld i.bits 31 0)) }) id
         ∧ (s.calm c → s.plainly t c [] (q.pc.toNat + 1)
             ∧ (t.core c).sq.waitDma = some (BitVec.ofNat 2 (fld i.bits 34 33), BitVec.ofNat 32 (fld i.bits 31 0))))
     ∧ (IssuesAlone 0x88 i s → ∃ t, exec (.tgArrive i) s = .next t ∧ t = s.issued c (s.after c)
           (fun t => t.modSq c fun x => { x with
             tgFly := x.tgFly ++ [(tg, q.pc)], release := if bit i.bits 35 then some (tg, q.pc) else x.release }) id
         ∧ (s.calm c → s.plainly t c [] (q.pc.toNat + 1) ∧ (t.core c).sq.tgFly = q.tgFly ++ [(tg, q.pc)]
             ∧ (bit i.bits 35 = true → (t.core c).sq.release = some (tg, q.pc))))
     ∧ (IssuesAlone 0x8F i s → ∃ t, exec (.halt i) s = .next t ∧ t = s.issued c { pc := q.pc.toNat, halt := true } id id
         ∧ (t.core c).sq.pc = q.pc
         ∧ (s.calm c → (t.core c).sq.st = .done ∧ keepsRegs c [] s t ∧ (s.core c).keepsMe (t.core c) ∧ (s.core c).keepsVe (t.core c)
             ∧ (s.core c).keepsCm (t.core c) ∧ (s.core c).keepsDma (t.core c) ∧ (s.core c).keepsCq (t.core c) ∧ s.onlyCore t c)))

/-- R129, R130, R131, R154, R156: a scalar instruction of layout SR writes RD with its function of SRC1 and SRC2, read before the bundle; with
nothing else under way at its core, no other register and no unit changes. A scalar instruction of layout SI writes RD with its function of
SRC1 and the sign-extended immediate; with nothing else under way at its core, no other register and no unit changes. LDN and STN ask for
their bank in the next a-cycle. With nothing else under way at the core, LDN's register holds the eight bytes of core memory at a[AREG] +
OFF × 8 modulo 2^64, low byte at the low address, four a-cycles later; and three a-cycles later STN has written its register's there, and no
other byte of core memory. The opcodes that R130 does not assign name no command. -/
def Obligations.ScalarOpcodes : Prop :=
  (∀ (ctor : Issue → Instr) (op : BitVec 8) (lat : Nat) (f : Word → Word → Word),
     (ctor, op, lat, f) ∈ ([
       (.add, 0x01, 1, fun x y => x + y), (.sub, 0x02, 1, fun x y => x - y), (.mul, 0x03, 3, fun x y => x * y),
       (.andOp, 0x04, 1, fun x y => x &&& y), (.orOp, 0x05, 1, fun x y => x ||| y), (.xorOp, 0x06, 1, fun x y => x ^^^ y),
       (.shl, 0x07, 1, fun x y => x <<< (y.toNat % 64)), (.shr, 0x08, 1, fun x y => x >>> (y.toNat % 64)),
       (.sar, 0x09, 1, fun x y => x.sshiftRight (y.toNat % 64)),
       (.slt, 0x0A, 1, fun x y => if x.toInt < y.toInt then 1 else 0),
       (.sltu, 0x0B, 1, fun x y => if x.toNat < y.toNat then 1 else 0), (.seq, 0x0C, 1, fun x y => if x = y then 1 else 0),
       (.minOp, 0x0D, 1, fun x y => if y.toInt < x.toInt then y else x),
       (.maxOp, 0x0E, 1, fun x y => if x.toInt < y.toInt then y else x)] :
         List ((Issue → Instr) × BitVec 8 × Nat × (Word → Word → Word))) →
     ∀ (i : Issue) (s : State), IssuesAlone op i s →
       let c := i.core
       let rd := fld i.bits 55 49
       let v := f (readU s c (fld i.bits 48 42)) (readU s c (fld i.bits 41 35))
       ∃ t, exec (ctor i) s = .next t ∧ t = s.issued c (s.after c) (fun t => t.writeReg c rd v lat) id
         ∧ (s.calm c → readU t c rd = readU (s.writeReg c rd v lat) c rd ∧ s.plainly t c [rd] ((s.core c).sq.pc.toNat + 1)))
  ∧ (∀ (ctor : Issue → Instr) (op : BitVec 8) (lat : Nat) (f : Word → Word → Word),
     (ctor, op, lat, f) ∈ ([
       (.addi, 0x10, 1, fun x y => x + y), (.andi, 0x11, 1, fun x y => x &&& y), (.ori, 0x12, 1, fun x y => x ||| y),
       (.xori, 0x13, 1, fun x y => x ^^^ y), (.shli, 0x14, 1, fun x y => x <<< (y.toNat % 64)),
       (.shri, 0x15, 1, fun x y => x >>> (y.toNat % 64)), (.sari, 0x16, 1, fun x y => x.sshiftRight (y.toNat % 64)),
       (.lui, 0x17, 1, fun x y => BitVec.ofNat 64 (x.toNat % 2 ^ 32 + y.toNat % 2 ^ 32 * 2 ^ 32)),
       (.muli, 0x18, 3, fun x y => x * y)] : List ((Issue → Instr) × BitVec 8 × Nat × (Word → Word → Word))) →
     ∀ (i : Issue) (s : State), IssuesAlone op i s →
       let c := i.core
       let rd := fld i.bits 55 49
       let v := f (readU s c (fld i.bits 48 42)) (BitVec.ofInt 64 (i.bits.extractLsb' 0 32).toInt)
       ∃ t, exec (ctor i) s = .next t ∧ t = s.issued c (s.after c) (fun t => t.writeReg c rd v lat) id
         ∧ (s.calm c → readU t c rd = readU (s.writeReg c rd v lat) c rd ∧ s.plainly t c [rd] ((s.core c).sq.pc.toNat + 1)))
  ∧ (∀ (i : Issue) (s : State),
     let c := i.core
     let a := ((vget (s.core c).sq.a (fld i.bits 48 45)).toNat + fld i.bits 19 0 * 8) % 2 ^ 64
     let t := (s.core c).sq.clk
     let rd := fld i.bits 55 49
     let pc := (s.core c).sq.pc.toNat + 1
     (IssuesAlone 0x1C i s →
       ∃ u, exec (.ldn i) s = .next u
         ∧ u = s.issued c (s.after c) (fun t => t.modSq c fun q => q.await rd 4) id
           [{ code := i.slot.toNat + 1, seq := 0, rows := [a / 256], at_ := t + 1, stamps := [.reg (BitVec.ofNat 7 rd) (t + 4)]
              move := .load (BitVec.ofNat 7 rd) a }]
         ∧ (s.calm c →
             readU (u.pass c 3) c rd = readU (s.writeReg c rd (BitVec.ofNat 64 (ofLe (Mem.read (s.core c).cm.mem a 8))) 4) c rd
               ∧ s.plainly (u.pass c 3) c [rd] pc))
     ∧ (IssuesAlone 0x1D i s →
       ∃ u, exec (.stn i) s = .next u
         ∧ u = s.issued c (s.after c) id id
           [{ code := i.slot.toNat + 1, seq := 0, write := true, narrow := true, rows := [a / 256], at_ := t + 1
              move := .store a (leBytes 8 (readU s c rd).toNat) }]
         ∧ (s.calm c →
             let v := u.pass c 3
             Mem.read (v.core c).cm.mem a 8 = leBytes 8 (readU s c rd).toNat
               ∧ (∀ x, x < a ∨ a + 8 ≤ x → Mem.get (v.core c).cm.mem x = Mem.get (s.core c).cm.mem x)
               ∧ keepsRegs c [] s v ∧ (s.core c).keepsSq (v.core c) ∧ (s.core c).keepsMe (v.core c) ∧ (s.core c).keepsVe (v.core c)
               ∧ (s.core c).keepsDma (v.core c) ∧ (s.core c).keepsCq (v.core c) ∧ s.onlyCore v c ∧ (v.core c).sq.pc.toNat = pc)))
  ∧ (∀ (i : Issue) (op : BitVec 8), op ∈ ([0x0F, 0x19, 0x1A, 0x1B, 0x1E, 0x1F] : List (BitVec 8)) → slotInstr op i = none)

/-- R123: a unified register reads what was written to it, cut to its width; every other register keeps its value. -/
def Obligations.UnifiedRegistersHoldWrites : Prop :=
  ∀ (s : State) (c : CoreId) (n lat : Nat) (v : Word), n < 68 →
    readU (s.writeReg c n v lat) c n
        = (if 48 ≤ n ∧ n < 56 then v &&& 0xFF else if 64 ≤ n then v &&& 0xFFFFFFFF else v)
      ∧ ∀ m, m ≠ n → readU (s.writeReg c n v lat) c m = readU s c m

/-- R127, R133, R134: BR, BRC, BRL and RET choose the next bundle; a taken branch, BRL and RET cost one more a-cycle; BRL keeps the return
index. With nothing else under way at the core, nothing else changes. LP.SET and LP.SETR load a loop counter, LP.BR counts it down and
branches until it reaches zero. With nothing else under way at the core, nothing else changes. -/
def Obligations.BranchesAndLoops : Prop :=
  (∀ (i : Issue) (s : State),
     let c := i.core
     let pc := (s.core c).sq.pc.toNat
     let target := fld i.bits 12 0
     let r := fld i.bits 55 49
     let v := readU s c r
     let taken : Prop := match fld i.bits 48 46 with
       | 0 => v = 0 | 1 => v ≠ 0 | 2 => v.toInt < 0 | 3 => 0 ≤ v.toInt | 4 => 0 < v.toInt | _ => v.toInt ≤ 0
     let cost (t : State) (n : BitVec 64) : Prop := (t.core c).sq.cycle = (s.core c).sq.cycle + n
     (IssuesAlone 0x80 i s → ∃ t, exec (.br i) s = .next t ∧ t = s.issued c { pc := target } id id
         ∧ (s.calm c → s.plainly t c [] target ∧ cost t 1))
     ∧ (IssuesAlone 0x81 i s → taken → ∃ t, exec (.brc i) s = .next t ∧ t = s.issued c { pc := target, idle := 1 } id id
         ∧ (s.calm c → s.plainly t c [] target ∧ cost t 2))
     ∧ (IssuesAlone 0x81 i s → ¬taken → ∃ t, exec (.brc i) s = .next t ∧ t = s.issued c { pc := pc + 1 } id id
         ∧ (s.calm c → s.plainly t c [] (pc + 1) ∧ cost t 1))
     ∧ (IssuesAlone 0x82 i s → ∃ t, exec (.brl i) s = .next t
         ∧ t = s.issued c { pc := target, idle := 1 } (fun t => t.writeReg c r (BitVec.ofNat 64 (pc + 1)) 1) id
         ∧ (s.calm c → s.plainly t c [r] target ∧ readU t c r = BitVec.ofNat 64 (pc + 1) ∧ cost t 2))
     ∧ (IssuesAlone 0x83 i s → ∃ t, exec (.ret i) s = .next t ∧ t = s.issued c { pc := v.toNat, idle := 1 } id id
         ∧ (s.calm c → s.plainly t c [] v.toNat ∧ cost t 2)))
  ∧ (∀ (i : Issue) (s : State),
     let c := i.core
     let pc := (s.core c).sq.pc.toNat
     let l := 64 + fld i.bits 45 44
     let n := (readU s c l).toNat
     let next := if n = 1 then pc + 1 else fld i.bits 12 0
     (IssuesAlone 0x84 i s → ∃ t, exec (.lpSet i) s = .next t
         ∧ t = s.issued c (s.after c) (fun t => t.writeReg c l (BitVec.ofNat 64 (fld i.bits 31 0)) 1) id
         ∧ (s.calm c → readU t c l = BitVec.ofNat 64 (fld i.bits 31 0) ∧ s.plainly t c [l] (pc + 1)))
     ∧ (IssuesAlone 0x85 i s → ∃ t, exec (.lpSetr i) s = .next t
         ∧ t = s.issued c (s.after c) (fun t => t.writeReg c l (readU s c (fld i.bits 55 49)) 1) id
         ∧ (s.calm c → readU t c l = readU s c (fld i.bits 55 49) &&& 0xFFFFFFFF ∧ s.plainly t c [l] (pc + 1)))
     ∧ (IssuesAlone 0x86 i s → ∃ t, exec (.lpBr i) s = .next t
         ∧ t = s.issued c { pc := next } (fun t => t.writeReg c l (readU s c l - 1) 1) id
         ∧ (s.calm c → readU t c l = (readU s c l - 1) &&& 0xFFFFFFFF ∧ s.plainly t c [l] next)))

/-- R57 to R70, R71, R86: the matrix instructions that the M and D slots issue, and what each leaves with its engine: an exchange of the sets,
the descriptors to be loaded, the loads of an LDS run with the a-cycles of their write beats, a stream with its row groups, a list with its
region. With nothing else under way at the core, SWAP exchanges the stationary sets; LDTD loads the descriptors from the row, reserved bits
as 0; a load of LDS lands in the stirrup set and makes it FRESH with its write beat; a stream of one row group adds, element by element, the
products of its rows and of the columns of the active set that its masks enable. -/
def Obligations.MatrixInstructionsIssue : Prop :=
  (∀ (i : Issue) (s : State),
     let c := i.core
     let k := s.core c
     let b := i.bits
     let clk := k.sq.clk
     let a (n : Nat) : Nat := (vget k.sq.a n).toNat
     let g := fld b 47 35 + 1
     let scale (j : Nat) : Option (Nat × Nat) :=
       let w := if bit b 26 then 128 else 64
       if bit b 31 then some (a (fld b 30 27) + j * w, w) else none
     (IssuesAlone 0x23 i s → exec (.swap i) s = .next (s.issued c (s.after c)
         (fun t => t.modMe c fun m => { m with swapDue := true, mFree := clk + 1 }) id))
     ∧ (IssuesAlone 0x24 i s → exec (.mmaLdtd i) s = .next (s.issued c (s.after c)
         (fun t => t.modMe c fun m => { m with tdAt :=
           (List.range (fld b 47 44 + 1)).foldl (fun v j => vset v (fld b 51 48 + j) (clk + 3)) m.tdAt }) id
         [{ code := 6, seq := 0, rows := [(a (fld b 55 52) + fld b 14 0 * 256) / 256], at_ := clk + 1
            stamps := (List.range (fld b 47 44 + 1)).map fun j => .td (fld b 51 48 + j) (clk + 3)
            move := .descs (a (fld b 55 52) + fld b 14 0 * 256) (fld b 51 48) (fld b 47 44 + 1) }]))
     ∧ (IssuesAlone 0x31 i s → exec (.ldsWstream i) s = .next (s.issued c (s.after c)
         (fun t => t.modMe c fun m => { m with
           pendWs := m.pendWs ++ (List.range (fld b 51 44 + 1)).map fun j =>
             { src := { path := .wstream, addr := a (fld b 55 52) % 2 ^ 37 + (fld b 15 0 + j * fld b 43 32) * 2048, scale := scale j }
               run := clk, num := j, at_ := clk + 5 + j }
           wsFree := clk + (fld b 51 44 + 1), portFrom := clk + 1, portUntil := clk + (fld b 51 44 + 1) }) id (ldsAsks k .wstream b)))
     ∧ (IssuesAlone 0x32 i s → exec (.ldsCm i) s = .next (s.issued c (s.after c)
         (fun t => t.modMe c fun m => { m with
           pendCm := m.pendCm ++ (List.range (fld b 51 44 + 1)).map fun j =>
             { src := { path := .cm, addr := a (fld b 55 52) + (fld b 14 0 + j * fld b 43 32) * 256, scale := scale j }
               run := clk, num := j, at_ := clk + 9 + 8 * j }
           cmFree := clk + 8 * (fld b 51 44 + 1) }) id (ldsAsks k .cm b)))
     ∧ (IssuesAlone 0x21 i s → exec (.mmaStream i) s = .next (s.issued c (s.after c)
         (fun t => t.modMe c fun m => { m with
           swapDue := bit b 29, mFree := clk + g, arrayFrom := clk + 1, arrayUntil := clk + g
           stream := some {
             groups := (List.range g).map fun j =>
               ((fld b 25 17 + (if bit b 16 then a (fld b 15 12) else 0) + j) % 512,
                 if j + 1 = g then vget k.sq.rm (fld b 11 9) else 0xFF)
             tile := fld b 51 48, ring := if 8 < g then fld b 28 26 else 0, row0 := fld b 34 32
             desc := vget k.me.td (fld b 55 52), colMask := vget k.sq.cm (fld b 8 6)
             init := bit b 31, fin := bit b 30, long := decide (8 < g), at_ := clk + 1 } }) id))
     ∧ (IssuesAlone 0x22 i s → exec (.mmaList i) s = .next (s.issued c (s.after c)
         (fun t => t.modMe c fun m => { m with
           swapDue := bit b 35, mFree := clk + fld b 47 36 + 2, arrayFrom := clk + 2, arrayUntil := clk + fld b 47 36 + 2
           list := some {
             addr := a (fld b 51 48), next := 0, last := fld b 47 36, td := BitVec.ofNat 4 (fld b 55 52)
             colMask := vget k.sq.cm (fld b 34 32), rlo := fld b 31 23, rlen := fld b 22 14, bundle := k.sq.pc, at_ := clk + 2 } }) id
         ((List.range (fld b 47 36 / 32 + 1)).map fun j =>
           { code := 7, seq := j, at_ := clk + 1 + 32 * j
             rows := if a (fld b 51 48) + 256 * j < 2 ^ 23 then [a (fld b 51 48) / 256 + j] else []
             stamps := if j = fld b 47 36 / 32 then [.mSlot (clk + fld b 47 36 + 2)] else []
             move := .listRow (a (fld b 51 48) + 256 * j) }))))
  ∧ (∀ (i : Issue) (s : State),
     let c := i.core
     let k := s.core c
     let b := i.bits
     let a (n : Nat) : Nat := (vget k.sq.a n).toNat
     s.calm c →
     (IssuesAlone 0x23 i s → ∃ t, exec (.swap i) s = .next t ∧ (t.core c).me.active = k.me.stirrup ∧ (t.core c).me.stirrup = k.me.active
         ∧ (t.core c).me.fresh = false ∧ (t.core c).me.acc = k.me.acc ∧ (t.core c).me.td = k.me.td
         ∧ keepsRegs c [] s t ∧ k.keepsVe (t.core c) ∧ k.keepsCm (t.core c) ∧ s.onlyCore t c)
     ∧ (IssuesAlone 0x24 i s →
         let row := a (fld b 55 52) + fld b 14 0 * 256
         ∃ t, exec (.mmaLdtd i) s = .next t
           ∧ (∀ n, n < 16 → vget ((t.pass c 2).core c).me.td n
             = if fld b 51 48 ≤ n ∧ n ≤ fld b 51 48 + fld b 47 44
               then BitVec.ofNat 64 (ofLe (Mem.read k.cm.mem (row + 8 * (n - fld b 51 48)) 8)) &&& 0xFFE703FFFFFF0000
               else vget k.me.td n)
           ∧ keepsRegs c [] s (t.pass c 2) ∧ k.keepsVe ((t.pass c 2).core c) ∧ k.keepsCm ((t.pass c 2).core c)
           ∧ s.onlyCore (t.pass c 2) c)
     ∧ (IssuesAlone 0x32 i s → fld b 51 44 = 0 → bit b 31 = false → k.me.pendCm = [] →
         let src := a (fld b 55 52) + fld b 14 0 * 256
         ∃ t u, exec (.ldsCm i) s = .next t ∧ exec (.ldsWriteBeat c .cm) (t.pass c 8) = .next u
           ∧ (u.core c).me.stirrup.image = Mem.read k.cm.mem src 2048 ∧ (u.core c).me.stirrup.scale = k.me.stirrup.scale
           ∧ (u.core c).me.fresh = true ∧ (u.core c).me.active = k.me.active ∧ (u.core c).me.pendCm = []
           ∧ keepsRegs c [] s u ∧ k.keepsVe (u.core c) ∧ k.keepsCm (u.core c) ∧ s.onlyCore u c)
     ∧ (IssuesAlone 0x21 i s → fld b 47 35 = 0 → bit b 31 = false → bit b 30 = false → bit b 29 = false →
         let tile := fld b 51 48
         let d := (vget k.me.tiles tile).desc
         let line := (fld b 25 17 + if bit b 16 then a (fld b 15 12) else 0) % 512
         let row0 := fld b 34 32
         (vget k.me.tiles tile).st = .opened →
         ∃ t, exec (.mmaStream i) s = .next t
           ∧ (∀ m n, m < 64 → n < 64 → accElem ((t.pass c 1).core c).me.acc tile m n
               = if m / 8 = row0 ∧ bit (vget k.sq.rm (fld b 11 9)) (m % 8) = true ∧ bit (vget k.sq.cm (fld b 8 6)) n = true
                 then accStep d (accElem k.me.acc tile m n) (products (streamRow k.me d line (m % 8)) (statColumn k.me.active d n))
                 else accElem k.me.acc tile m n)
           ∧ (∀ x, x < accAddr tile 0 0 ∨ accAddr (tile + 1) 0 0 ≤ x →
               Mem.get ((t.pass c 1).core c).me.acc x = Mem.get k.me.acc x)
           ∧ ((t.pass c 1).core c).me.active = k.me.active ∧ ((t.pass c 1).core c).me.stirrup = k.me.stirrup
           ∧ keepsRegs c [] s (t.pass c 1) ∧ k.keepsVe ((t.pass c 1).core c) ∧ k.keepsCm ((t.pass c 1).core c)
           ∧ s.onlyCore (t.pass c 1) c))

/-- R97, R116, R168: every vector instruction that issues has a plan, which its fields and its core's registers give: it occupies its unit for its
chunks, its accesses to the VOB are in flight, and it is in flight with its registers; VXS's register is awaited, VLD and VST ask for their banks. -/
def Obligations.VectorInstructionsIssue : Prop :=
  ∀ (ctor : Issue → Instr) (op : BitVec 8),
    (ctor, op) ∈ ([
      (.vaddF32, 0x40), (.vsubF32, 0x41), (.vmulF32, 0x42), (.vfmaF32, 0x43), (.vmaxF32, 0x44), (.vminF32, 0x45),
      (.vaddBf16, 0x48), (.vsubBf16, 0x49), (.vmulBf16, 0x4A), (.vfmaBf16, 0x4B), (.vmaxBf16, 0x4C), (.vminBf16, 0x4D),
      (.vaddI32, 0x50), (.vsubI32, 0x51), (.vmulI32, 0x52), (.vand, 0x53), (.vor, 0x54), (.vxor, 0x55), (.vshlI32, 0x56),
      (.vshrI32, 0x57), (.vmaxI32, 0x58), (.vminI32, 0x59), (.vcmpltI32, 0x5B), (.vcmpltF32, 0x5C), (.vcmpleF32, 0x5D),
      (.vcmpeqF32, 0x5E), (.vsel, 0x5F), (.vcvt, 0x60), (.vwadd, 0x61), (.vwaddf, 0x62), (.vwrebase, 0x63), (.vqmx, 0x64),
      (.vdqmx, 0x65), (.vwcvt, 0x66), (.vexp2, 0x68), (.vlog2, 0x69), (.vrcp, 0x6A), (.vrsqrt, 0x6B), (.vtanh, 0x6C),
      (.vsigm, 0x6D), (.vshufBfly, 0x70), (.vshufRot, 0x71), (.vshufBcast, 0x72), (.vshufShup, 0x73), (.vrand, 0x74),
      (.vxs, 0x76), (.vld, 0x7C), (.vst, 0x7D)] : List ((Issue → Instr) × BitVec 8)) →
    ∀ (i : Issue) (s : State), IssuesAlone op i s →
      let c := i.core
      let k := s.core c
      let clk := k.sq.clk
      ∃ p, vectorPlan s c op.toNat i.bits = .ok p
        ∧ exec (ctor i) s = .next (s.issued c (s.after c)
          (fun t =>
            let t := t.modVe c fun v => { v with
              unitFree := vset v.unitFree p.unit (clk + p.chunks)
              reads := v.reads.filter (fun u => clk ≤ u.at_) ++ vobUses clk p.first p.chunks p.reads
              writes := v.writes.filter (fun u => clk ≤ u.at_) ++ vobUses clk p.lat p.chunks p.writes
              flights := v.flights ++ [{ op := op.toNat, bits := i.bits, s := k.sq.s, a := k.sq.a, at_ := clk }] }
            if op = 0x76 then t.modSq c fun q => q.await (fld i.bits 55 51) 3 else t) id
          (moveAsks k op.toNat i.bits))

/-- R181, R185, R188, R196: a DMA instruction that issues appends its descriptor, with what its fields and registers give, to its queue and counts
it issued; it moves nothing yet. A COPY to instruction memory marks the segments that it will write as PENDING (R141). With nothing else under way
at the core, nothing else changes. -/
def Obligations.DmaInstructionsQueueDescriptor : Prop :=
  ∀ (i : Issue) (s : State),
    let c := i.core
    let k := s.core c
    let b := i.bits
    let q := fld b 55 54
    let old := vget k.dma.queues q
    let a (n : Nat) : Nat := (vget k.sq.a n).toNat
    let put (d : DmaOp) (t : State) : State := t.modDma c fun x => { x with
      queues := vmod x.queues q fun y => { y with issued := y.issued + 1, descs := y.descs ++ [{ op := d, bundle := k.sq.pc, num := y.issued }] } }
    let after (t : State) (d : DmaOp) : Prop := s.calm c → old.descs.any (·.ended) = false →
      (vget (t.core c).dma.queues q).issued = old.issued + 1 ∧ (vget (t.core c).dma.queues q).done = old.done
        ∧ (vget (t.core c).dma.queues q).descs = old.descs ++ [{ op := d, bundle := k.sq.pc, num := old.issued }]
        ∧ keepsRegs c [] s t ∧ k.keepsSq (t.core c) ∧ k.keepsMe (t.core c) ∧ k.keepsVe (t.core c) ∧ k.keepsCm (t.core c)
        ∧ k.keepsCq (t.core c) ∧ s.onlyCore t c ∧ (t.core c).sq.pc.toNat = k.sq.pc.toNat + 1
    (IssuesAlone 0x33 i s → ∃ ssp dsp t, spaceOf (fld b 53 51) = some ssp ∧ spaceOf (fld b 50 48) = some dsp
        ∧ exec (.dmaCopy i) s = .next t
        ∧ (let rows := fld b 39 28 + 1
           let dst := sideAddr dsp (a (fld b 43 40)) (fld b 13 0)
           let d := DmaOp.copy ssp (sideAddr ssp (a (fld b 47 44)) (fld b 27 14)) dsp dst rows
           t = s.issued c (s.after c) (fun t =>
              let t := put d t
              if dsp = .imem then t.modSq c fun x => { x with imemPend := x.imemPend ||| overlaySegs dst rows } else t) id
            ∧ after t d))
    ∧ (IssuesAlone 0x34 i s → ∃ ssp dsp t, spaceOf (fld b 53 51) = some ssp ∧ spaceOf (fld b 50 48) = some dsp
        ∧ exec (.dmaGather i) s = .next t
        ∧ (let r := vget k.sq.a (fld b 39 36)
           let d := DmaOp.gather ssp (a (fld b 47 44)) dsp (sideAddr dsp (a (fld b 43 40)) (fld b 19 6)) (fld r 36 0) (fld r 63 40)
             (fld b 35 24 + 1) (fld b 23 20 + 1)
           t = s.issued c (s.after c) (put d) id ∧ after t d))
    ∧ (IssuesAlone 0x35 i s → ∃ t, exec (.dmaPaged i) s = .next t
        ∧ (let p := vget k.sq.s (fld b 45 41)
           let g := fld b 40 29 + 1
           let la := a (fld b 49 46)
           let d := if fld b 52 50 = 2 then DmaOp.paged (bit b 53) (fld p 36 28) (fld p 27 0) .abuf ((256 * (la % 512) + 32 * fld b 28 15) % 131072) g
             else DmaOp.paged (bit b 53) (fld p 36 28) (fld p 27 0) .cm (la % 2 ^ 23 + 32 * fld b 28 15) g
           t = s.issued c (s.after c) (put d) id ∧ after t d))

/-- R218, R223 to R225, R227, R232 to R237, R242 to R244, R247: every channel and queue instruction that issues takes its effect in the a-cycle
of issue and in the next. With nothing else under way at the core: CH.OPEN leaves its send endpoint OPENING with the mode, the longest
message and the milepost, and its request goes to a peer of this package; CH.ACCEPT leaves its receive endpoint LISTENING with an empty
ring, or OPEN to the request that waits there when the ring holds its longest message and the mileposts rise; a message that needs no PAD
takes its credit, and its row leaves with its header and payload; CH.ACK frees the record at RPTR and returns its credit; CH.READ writes the
record's summary, or 0 for an empty ring; CH.CLOSE of a send endpoint sends a CLOSE record, and of a receive endpoint a notice; CH.STAT
reads an endpoint. With nothing else under way at the core: CQ.OPEN leaves its queue FORMING with the queue word; CQ.CLOSE breaks an open
queue and closes a broken one; CQ.JOIN leaves its handle joining with the fields of the word, and its request goes to the queue; CQ.LEAVE
frees the handle; CQ.CONTRIB makes its handle busy, and its rows leave as they are read; CQ.MPSET stages a milepost, and the current one
stays. -/
def Obligations.ChannelInstructionsIssue : Prop :=
  (∀ (ctor : Issue → Instr) (op : BitVec 8),
     (ctor, op) ∈ ([
       (.chOpen, 0xA0), (.chAccept, 0xA1), (.chSend, 0xA2), (.chAck, 0xA3), (.chRead, 0xA4), (.chClose, 0xA5),
       (.chStat, 0xA6), (.cqOpen, 0xA8), (.cqClose, 0xA9), (.cqJoin, 0xAA), (.cqLeave, 0xAB), (.cqContrib, 0xAC),
       (.cqMpset, 0xAD)] : List ((Issue → Instr) × BitVec 8)) →
     ∀ (i : Issue) (s : State), IssuesAlone op i s →
       exec (ctor i) s = .next ((s.padded op i).issued i.core ((s.padded op i).after i.core)
         (channelEffect (s.padded op i) i.core op.toNat i.bits) (channelLate (s.padded op i) i.core op.toNat i.bits)
         (channelAsks (s.padded op i) i.core op.toNat i.bits)))
  ∧ (∀ (i : Issue) (s : State),
     let c := i.core
     let k := s.core c
     let b := i.bits
     let e := fld b 55 51
     let w := vget k.sq.s (fld b 50 46)
     let x := vget k.cq.send e
     let r := vget k.cq.recv e
     let quiet (t : State) : Prop := k.keepsMe (t.core c) ∧ k.keepsVe (t.core c) ∧ k.keepsDma (t.core c) ∧ (t.core c).cm.mem = k.cm.mem
       ∧ (t.core c).sq.imem = k.sq.imem ∧ (t.core c).sq.pc.toNat = k.sq.pc.toNat + 1
     s.calm c →
     (IssuesAlone 0xA0 i s → ∃ t, exec (.chOpen i) s = .next t ∧ quiet t ∧ keepsRegs c [] s t
         ∧ (let y := vget (t.core c).cq.send e
            y.st = .opening ∧ y.flowctl = bit w 8 ∧ y.statusOnly = bit w 7 ∧ y.maxlen = fld w 33 17 ∧ y.inc = x.inc
              ∧ y.mp = k.cq.mpCurrent ∧ y.credit = 0 ∧ y.sent = x.sent ∧ y.done = x.done)
         ∧ (bit w 47 = true → ∃ p, t.net = s.net ++ [p] ∧ p.kind = .chOpen ∧ p.dstUnit.toNat = fld w 46 39 ∧ p.dstEp.toNat = fld w 38 34
             ∧ p.srcUnit = c ∧ p.srcInc = x.inc))
     ∧ (IssuesAlone 0xA1 i s → ∃ t, exec (.chAccept i) s = .next t ∧ quiet t ∧ keepsRegs c [] s t
         ∧ (let y := vget (t.core c).cq.recv e
            y.size.toNat = fld w 35 32 ∧ y.base = fld w 22 0 ∧ y.wptr = 0 ∧ y.rptr = 0 ∧ y.landed = [] ∧ y.mp = k.cq.mpCurrent ∧ y.inc = r.inc
              ∧ y.waiting = none ∧ (r.waiting = none → y.st = .listening)
              ∧ ∀ p, r.waiting = some p → p.fabric = false → fld p.arg 46 39 < k.cq.mpCurrent.toNat →
                  256 * recordRows (fld p.arg 63 47) + 256 ≤ 4096 * 2 ^ fld w 35 32 → y.st = .opened ∧ y.peer = srcPeer p))
     ∧ (IssuesAlone 0xA2 i s → x.st = .opened → x.needsPad (fld b 46 30) = false → fld b 46 30 ≤ 224 →
         ∃ t, exec (.chSend i) s = .next t ∧ quiet t ∧ keepsRegs c [] s t
           ∧ vget (t.core c).cq.send e = { x with
               credit := x.credit - 256, wcopy := if x.ring = 0 then 0 else (x.wcopy + 256) % x.ring, seq := x.seq + 1, sent := x.sent + 1
               flights := x.flights ++ [(x.seq, k.sq.pc)] }
           ∧ (x.peer.loc = true → ∃ p, (t.pass c 1).net = s.net ++ [p] ∧ p.kind = .chRow ∧ p.srcUnit = c ∧ p.dstUnit = x.peer.unit
               ∧ p.dstEp = x.peer.ep ∧ fld p.arg 63 52 = x.wcopy / 256 % 4096 ∧ bit p.arg 51 = true
               ∧ p.body.take (32 + fld b 46 30)
                 = header s 0 (fld b 46 30) (fld b 15 0) { unit := c, ep := BitVec.ofNat 8 e, inc := x.inc } x.peer.inc x.seq 0
                   ++ Mem.read k.cm.mem (areg23 k (fld b 50 47) + 256 * fld b 29 16) (fld b 46 30)))
     ∧ (IssuesAlone 0xA2 i s → x.st = .broken → ∃ t, exec (.chSend i) s = .next t
         ∧ (let y := vget (t.core c).cq.send e
            y.st = .broken ∧ y.sent = x.sent + 1 ∧ y.done = x.done + 1 ∧ y.last = 4)
         ∧ (x.statusOnly = false → (t.core c).sq.st = .fault))
     ∧ (IssuesAlone 0xA3 i s → r.st = .opened → r.peer.loc = true →
         let hd := Mem.read k.cm.mem (r.base + r.rptr) 32
         hdrKind hd = 0 → ∃ t p, exec (.chAck i) s = .next t ∧ quiet t ∧ keepsRegs c [] s t
           ∧ vget (t.core c).cq.recv e = { r with rptr := (r.rptr + 256 * recordRows (hdrLen hd)) % r.z }
           ∧ t.net = s.net ++ [p] ∧ p.kind = .credit ∧ p.dstUnit = r.peer.unit ∧ p.dstEp = r.peer.ep
           ∧ fld p.arg 63 43 = 256 * recordRows (hdrLen hd) % 2 ^ 21)
     ∧ (IssuesAlone 0xA4 i s → ∃ t, exec (.chRead i) s = .next t ∧ t = s.issued c (s.after c)
           (fun t => t.modSq c fun q => q.await (fld b 31 27) 3) id
           [{ code := 12, seq := 0, rows := [], at_ := k.sq.clk + 1, stamps := [.reg (BitVec.ofNat 7 (fld b 31 27)) (k.sq.clk + 3)]
              move := .ringHead e b (areg23 k (fld b 50 47) + 256 * fld b 46 32) k.sq.pc false }]
         ∧ (r.rptr = r.wptr → readU (t.pass c 2) c (fld b 31 27) = 0)
         ∧ (r.rptr ≠ r.wptr → bit b 26 = false → bit b 25 = false →
             let hd := Mem.read k.cm.mem (r.base + r.rptr) 256
             hdrKind hd ≠ 1 → readU (t.pass c 2) c (fld b 31 27) = summary hd ∧ vget ((t.pass c 2).core c).cq.recv e = r))
     ∧ (IssuesAlone 0xA5 i s → bit b 45 = false → ∃ t, exec (.chClose i) s = .next t ∧ quiet t ∧ keepsRegs c [] s t
         ∧ (vget (t.core c).cq.send e).st = .closed
         ∧ (x.st ≠ .closed → (vget (t.core c).cq.send e).inc = x.inc + 1 ∧ (vget (t.core c).cq.send e).flights = [])
         ∧ (x.st = .opened → x.peer.loc = true → ∃ p, t.net = s.net ++ [p] ∧ p.kind = .chRow ∧ p.dstUnit = x.peer.unit ∧ p.dstEp = x.peer.ep
             ∧ p.body.take 32 = header s 2 0 0 { unit := c, ep := BitVec.ofNat 8 e, inc := x.inc } x.peer.inc x.seq 0))
     ∧ (IssuesAlone 0xA5 i s → bit b 45 = true → ∃ t, exec (.chClose i) s = .next t ∧ quiet t ∧ keepsRegs c [] s t
         ∧ (vget (t.core c).cq.recv e).st = .closed
         ∧ (r.st ≠ .closed → (vget (t.core c).cq.recv e).inc = r.inc + 1 ∧ (vget (t.core c).cq.recv e).landed = [])
         ∧ (r.st = .opened → r.peer.loc = true → ∃ p, t.net = s.net ++ [p] ∧ p.kind = .resp ∧ fld p.arg 63 60 = 5 ∧ p.dstUnit = r.peer.unit
             ∧ p.dstEp = r.peer.ep))
     ∧ (IssuesAlone 0xA6 i s → ∃ t, exec (.chStat i) s = .next t
         ∧ readU t c (fld b 50 46) = (if bit b 45 then occWord r else sepWord x) ∧ s.plainly t c [fld b 50 46] (k.sq.pc.toNat + 1)))
  ∧ (∀ (i : Issue) (s : State),
     let c := i.core
     let k := s.core c
     let b := i.bits
     let w := vget k.sq.s (fld b 50 46)
     let q : QueueRef := if bit b 45 then .saddle (BitVec.ofNat 6 (fld b 44 39)) else .local c (BitVec.ofNat 2 (fld b 44 39))
     let n := fld b 54 51
     let quiet (t : State) : Prop := k.keepsMe (t.core c) ∧ k.keepsVe (t.core c) ∧ k.keepsDma (t.core c) ∧ (t.core c).cm.mem = k.cm.mem
       ∧ (t.core c).sq.imem = k.sq.imem ∧ (t.core c).sq.pc.toNat = k.sq.pc.toNat + 1 ∧ keepsRegs c [] s t
     s.calm c →
     (IssuesAlone 0xA8 i s → ∃ t, exec (.cqOpen i) s = .next t ∧ quiet t ∧ (t.queue q).word = w ∧ (t.queue q).owner = c
         ∧ (t.queue q).round = 0 ∧ (t.queue q).drop = 0 ∧ (t.queue q).inc = (s.queue q).inc ∧ (t.queue q).waiting = []
         ∧ ((s.queue q).waiting = [] → (t.queue q).st = .forming ∧ (t.queue q).contribs = [] ∧ (t.queue q).readers = [] ∧ t.net = s.net))
     ∧ (IssuesAlone 0xA9 i s → ∃ t, exec (.cqClose i) s = .next t ∧ quiet t ∧ (t.queue q).inc = (s.queue q).inc + 1
         ∧ (t.queue q).st = if (s.queue q).st = .broken then .closed else .broken)
     ∧ (IssuesAlone 0xAA i s → ∃ t, exec (.cqJoin i) s = .next t ∧ quiet t
         ∧ vget (t.core c).cq.handles n = {
             joining := true, reader := bit w 31, index := BitVec.ofNat 6 (fld w 30 25), saddle := bit w 38
             queue := BitVec.ofNat 7 (fld w 37 32), core := BitVec.ofNat 8 (fld w 46 39), loc := bit w 47, svc := BitVec.ofNat 16 (fld w 63 48)
             cfmt := bit w 19, statusOnly := bit w 18, rep := BitVec.ofNat 5 (fld w 24 20), mp := k.cq.mpCurrent, bundle := k.sq.pc }
         ∧ (bit w 47 = true → ∃ p, t.net = s.net ++ [p] ∧ p.kind = .join ∧ p.word = w ∧ p.dsad = bit w 38 ∧ p.dstEp.toNat = fld w 37 32
             ∧ p.srcUnit = c ∧ p.srcEp.toNat = n ∧ p.srcInc = k.inc ∧ (bit w 38 = false → p.dstUnit.toNat = fld w 46 39)))
     ∧ (IssuesAlone 0xAB i s → ∃ t, exec (.cqLeave i) s = .next t ∧ quiet t ∧ vget (t.core c).cq.handles n = {}
         ∧ ∀ m, m ≠ n → vget (t.core c).cq.handles m = vget k.cq.handles m)
     ∧ (IssuesAlone 0xAC i s →
         let m := fld b 55 52
         let h := vget k.cq.handles m
         let bytes := handleCount h * handleWidth h
         ∃ t, exec (.cqContrib i) s = .next t ∧ quiet t
           ∧ vget (t.core c).cq.handles m = { h with busy := true, bundle := k.sq.pc }
           ∧ (h.loc = true → bytes ≤ 256 → ∃ p, (t.pass c 1).net = s.net ++ [p] ∧ p.kind = .cqRow ∧ fld p.arg 63 58 = h.index.toNat
               ∧ bit p.arg 47 = true ∧ bit p.arg 46 = h.cfmt ∧ fld p.arg 15 0 = h.round.toNat ∧ p.dsad = h.saddle ∧ p.srcUnit = c
               ∧ p.body = Mem.read k.cm.mem (areg23 k (fld b 51 48) + 256 * fld b 47 33) 256))
     ∧ (IssuesAlone 0xAD i s → ∃ t, exec (.cqMpset i) s = .next t ∧ t = s.issued c (s.after c) (fun t => t.modCq c fun q => { q with
           mpStaged := BitVec.ofNat 8 (fld w 7 0), mpPending := true, mpBundle := k.sq.pc }) id
         ∧ quiet t ∧ (t.core c).cq.mpStaged.toNat = fld w 7 0 ∧ (t.core c).cq.mpPending = true ∧ (t.core c).cq.mpCurrent = k.cq.mpCurrent))

/-- R122, R124, R126, R137, R138: a word whose opcode its slot does not accept faults its core: the core is in FAULT, SQ_FAULT names SQ_OPCODE,
the slot and the bundle, and the program counter stays; with nothing else under way at the core, no register of the program and no unit
changes. A held bundle takes no effect: it stays with the sequencer, to be evaluated again in the next a-cycle, and the program counter
stays; with nothing else under way at the core, one a-cycle passes, and no register of the program, no operand store and no queue changes. A
command for a core that the part does not have stops with the fault of that core, and does so for no other core. -/
def Obligations.BundlesFaultOrHold : Prop :=
  (∀ (op : BitVec 8) (i : Issue) (c : Instr) (s : State), slotInstr op i = some c → s.canIssue i.core →
     op ≠ 0 → (i.word op).active = false → i.last = true → (s.core i.core).sq.pc.toNat < 8191 →
     (s.core i.core).sq.bundle = [] → (s.core i.core).sq.fault = 0 →
     bundleHolds s i.core [i.word op] = [] →
     errsIn s .imem i.core (64 * (s.core i.core).sq.pc.toNat) (64 * (s.core i.core).sq.pc.toNat + 64) = [] →
     ∃ t, exec c s = .next t ∧ (t.core i.core).sq.st = .fault
       ∧ fld (t.core i.core).sq.fault 63 48 = 0x0101 ∧ fld (t.core i.core).sq.fault 47 45 = i.slot.toNat
       ∧ fld (t.core i.core).sq.fault 12 0 = (s.core i.core).sq.pc.toNat ∧ (t.core i.core).sq.pc = (s.core i.core).sq.pc
       ∧ (s.calm i.core → keepsRegs i.core [] s t ∧ (s.core i.core).keepsMe (t.core i.core) ∧ (s.core i.core).keepsVe (t.core i.core)
           ∧ (s.core i.core).keepsCm (t.core i.core) ∧ (s.core i.core).keepsDma (t.core i.core) ∧ (s.core i.core).keepsCq (t.core i.core)))
  ∧ (∀ (op : BitVec 8) (i : Issue) (c : Instr) (s : State), slotInstr op i = some c → s.canIssue i.core →
     i.last = true → (s.core i.core).sq.bundle = [] → i.slot ≠ 7 →
     bundleFaults s i.core [i.word op] = [] →
     bundleHolds s i.core [i.word op] ++ regHolds (s.core i.core) (i.word op) ++ unitHolds s i.core (i.word op) ≠ [] →
     ∃ t, exec c s = .next t ∧ (t.core i.core).sq.pc = (s.core i.core).sq.pc
       ∧ (s.calm i.core → (t.core i.core).sq.bundle = [i.word op] ∧ (t.core i.core).sq.waiting = true
           ∧ s.plainly t i.core [] (s.core i.core).sq.pc.toNat ∧ (t.core i.core).sq.cycle = (s.core i.core).sq.cycle + 1
           ∧ (t.core i.core).dma.hold = (s.core i.core).dma.hold))
  ∧ (∀ (op : BitVec 8) (i : Issue) (c : Instr) (s : State), slotInstr op i = some c →
     (s.fusedOff i.core = true → exec c s = .fault (.absentCore i.core))
       ∧ (s.fusedOff i.core = false → ∃ t, exec c s = .next t))

/-- R12, R88, R118, R149, R171, R201, R202, R252, R276, R312, R346, R371, R401, R427, R445: a CNT_CLR bit of a core's window clears the counters
it names, and nothing else, and completes OK. A CNT_CLR bit of a package block clears the counters it names, and nothing else, and completes
OK. -/
def Obligations.CountersClear : Prop :=
  (∀ (c : CoreId) (s : State), s.cu.failstop = false → s.fusedOff c = false →
     (∀ (i : Instr) (block off : Nat) (f : CoreSt → CoreSt), (i, block, off, f) ∈ ([
         (.meCntClrReplayCyc c, 2, 0x30, fun k => { k with me := { k.me with replayCyc := 0 } }),
         (.meCntClrChk c, 2, 0x30, fun k => { k with me := { k.me with chkCnt := 0 } }),
         (.meCntClrDev c, 2, 0x30, fun k => { k with me := { k.me with devCnt := 0 } }),
         (.veCntClrDrains c, 3, 0x20, fun k => { k with ve := { k.ve with drainStatus := setFld k.ve.drainStatus 31 0 0 } }),
         (.veCntClrDev c, 3, 0x20, fun k => { k with ve := { k.ve with devCnt := 0 } }),
         (.sqCntClrRelease c, 0, 0x48, fun k => { k with sq := { k.sq with releaseCyc := 0 } }),
         (.sqCntClrDev c, 0, 0x48, fun k => { k with sq := { k.sq with devTotal := 0, devCnt := 0, devFirst := 0 } }),
         (.cmCntClrEcc c, 1, 0x40, fun k => { k with cm := { k.cm with eccCnt := 0, eccFirst := 0 } }),
         (.cmCntClrAsync c, 1, 0x40, fun k => { k with cm := { k.cm with asyncStat := 0 } }),
         (.cmCntClrCollide c, 1, 0x40, fun k => { k with cm := { k.cm with collide := 0, collideFirst := 0 } }),
         (.tmDmaClrHold c, 5, 0x38, fun k => { k with dma := { k.dma with hold := 0 } }),
         (.cqCntClrRing c, 4, 0x30, fun k => { k with cq := { k.cq with ringStat := 0 } }),
         (.cqCntClrRefused c, 4, 0x30, fun k => { k with cq := { k.cq with sendRefused := 0 } }),
         (.cqCntClrDev c, 4, 0x30, fun k => { k with cq := { k.cq with devCnt := 0 } })] :
           List (Instr × Nat × Nat × (CoreSt → CoreSt))) →
       exec i s = .next ((s.modCore c f).emit (.mgmt (coreAddr c block off) true .ok 0))))
  ∧ (∀ (s : State), s.cu.failstop = false →
     ∀ (i : Instr) (addr : Nat) (t : State), (i, addr, t) ∈ ([
         (.tmCntClrEcc, 0x0500800020, { s with tm := { s.tm with
           eccFirst := 0, pmStat := setFld s.tm.pmStat 15 0 0
           cols := s.tm.cols.map fun k => { k with stat := setFld k.stat 15 0 0 } } }),
         (.tmCntClrCol, 0x0500800020, { s with tm := { s.tm with cols := s.tm.cols.map fun k => { k with stat := setFld k.stat 63 16 0 } } }),
         (.tmCntClrPm, 0x0500800020, { s with tm := { s.tm with pmStat := setFld s.tm.pmStat 63 16 0 } }),
         (.pnCntClrEcc, 0x0400000088, { s with pn := { s.pn with eccCnt := 0 } }),
         (.pnCntClrArb, 0x0400000088, { s with pn := { s.pn with counts := [] } }),
         (.pnCntClrHold, 0x0400000088, { s with pn := { s.pn with schedHold := Vector.replicate 4 0, holdFirst := 0 } }),
         (.fiCntClrLink, 0x0300000080, { s with fi := { s.fi with ports := s.fi.ports.map fun p => { p with link := 0 } } }),
         (.fiCntClrIng, 0x0300000080, { s with fi := { s.fi with ingStat := 0 } }),
         (.fiCntClrRt, 0x0300000080, { s with fi := { s.fi with rtStat := 0 } }),
         (.hpCntClrLink, 0x02000000A8, { s with hp := { s.hp with linkStat := 0 } }),
         (.hpCntClrEmit, 0x02000000A8, { s with hp := { s.hp with emitStat := 0 } }),
         (.hpCntClrReq, 0x02000000A8, { s with hp := { s.hp with reqStat := 0 } }),
         (.cuCntClrMirror, 0x0100000078, { s with cu := { s.cu with mirrorStat := setFld s.cu.mirrorStat 63 16 0 } }),
         (.cuCntClrStale, 0x0100000078, { s with cu := { s.cu with staleReply := 0 } }),
         (.cuCntClrCe, 0x0100000078, { s with cu := { s.cu with ceCnt := 0 } }),
         (.msWsCntClrStat, 0x0000100030, { s with ws := { s.ws with stat := 0, bytes := 0 } }),
         (.msCntClrKdmp, 0x0000000070, { s with ms := { s.ms with authFail := 0, replay := 0 } }),
         (.msCkCntClrAvs, 0x0000200078, { s with ck := { s.ck with avs := s.ck.avs.map fun w => setFld w 47 32 0 } }),
         (.msCkCntClrRefmon, 0x0000200078, { s with ck := { s.ck with refmonMin := 0xFFFF } }),
         (.msCkCntClrChanges, 0x0000200078, { s with ck := { s.ck with changes := 0 } })] : List (Instr × Nat × State)) →
       exec i s = .next (t.emit (.mgmt addr true .ok 0)))

/-- R147: START runs a READY or DONE core from SQ_START_PC with SQ_CYCLE 0, STOP stops a running core, RESUME runs a stopped
quiet core, RESET begins the core's fence; in any other state each completes REFUSED(STATE) and changes nothing. A core that enters RUN
first brings its count of a-cycles up to the other cores' (`State.syncClk`, the model's choice, log entry 109). -/
def Obligations.SequencerControl : Prop :=
  ∀ (c : CoreId) (s : State), s.cu.failstop = false → s.fusedOff c = false →
    let k := s.core c
    let done (t : State) (r : Status) : State := t.emit (.mgmt (coreAddr c 0 8) true r 0)
    (k.sq.st = .ready ∨ k.sq.st = .done → exec (.sqCtrlStart c) s = .next (done ((s.syncClk c).modSq c fun q => { q with
        st := .run, pc := q.startPc, cycle := 0, holds := 0, bundle := [], waiting := false }) .ok))
    ∧ (k.sq.st ≠ .ready → k.sq.st ≠ .done → exec (.sqCtrlStart c) s = .next (done s (.refused .state)))
    ∧ (k.sq.st = .run → exec (.sqCtrlStop c) s = .next (done (s.modSq c fun q => { q with
        st := .stopped, holds := 0, bundle := [], waiting := false }) .ok))
    ∧ (k.sq.st ≠ .run → exec (.sqCtrlStop c) s = .next (done s (.refused .state)))
    ∧ (k.sq.st = .stopped → k.quiet = true → exec (.sqCtrlResume c) s = .next (done ((s.syncClk c).modSq c fun q => { q with
        st := .run }) .ok))
    ∧ (¬(k.sq.st = .stopped ∧ k.quiet = true) → exec (.sqCtrlResume c) s = .next (done s (.refused .state)))
    ∧ (k.sq.st ≠ .resetting → exec (.sqCtrlReset c) s = .next (done { s.modSq c (fun q => { q with
        st := .resetting, holds := 0, release := none, waitDma := none, bundle := [], waiting := false }) with
        cu := { s.cu with fences := s.cu.fences ++ [.core c] } } .ok))
    ∧ (k.sq.st = .resetting → exec (.sqCtrlReset c) s = .next (done s (.refused .state)))

/-- R379, R380, R381, R470, R471: when the fence of a core closes, which has no request and no arrived row left to await, the core is IDLE, its
registers are at their reset values, its memories and sets keep what they hold, and the incarnations of the core and of its endpoints have
advanced; each of its OPEN send endpoints has sent a peer-reset notice. A fence that has not closed in its time fail-stops the package with
CU_FENCE. -/
def Obligations.CoreFences : Prop :=
  (∀ (c : CoreId) (s : State), s.cu.failstop = false → s.cu.recovering = false →
     s.cu.fences.contains (.core c) = true → coreDrained s c = true →
     let k := s.core c
     ∃ t, exec (.fenceClose (.core c)) s = .next t
       ∧ t.cu.fences = s.cu.fences.erase (.core c)
       ∧ (t.core c).sq.st = .idle ∧ (t.core c).sq.pc = 0 ∧ (t.core c).sq.fault = 0 ∧ (t.core c).sq.cycle = 0
       ∧ (∀ n, n < 68 → readU t c n = 0)
       ∧ (t.core c).inc = k.inc + 1
       ∧ (t.core c).sq.imem = k.sq.imem ∧ (t.core c).me.acc = k.me.acc
       ∧ (t.core c).me.abuf = k.me.abuf ∧ (t.core c).me.ascale = k.me.ascale ∧ (t.core c).ve.vob = k.ve.vob
       ∧ (t.core c).cm.mem = k.cm.mem
       ∧ (t.core c).me.active.image = k.me.active.image ∧ (t.core c).me.active.scale = k.me.active.scale
       ∧ (t.core c).me.stirrup.image = k.me.stirrup.image ∧ (t.core c).me.active.source = none
       ∧ (t.core c).cm.asyncMask = k.cm.asyncMask ∧ (t.core c).cm.eccCnt = k.cm.eccCnt
       ∧ (∀ e, e < 32 → (vget (t.core c).cq.send e).inc = (vget k.cq.send e).inc + 1 ∧ (vget (t.core c).cq.send e).st = .closed
           ∧ (vget (t.core c).cq.recv e).inc = (vget k.cq.recv e).inc + 1 ∧ (vget (t.core c).cq.recv e).st = .closed))
  ∧ (∀ (u : FenceUnit) (s : State), s.cu.failstop = false → s.cu.fences.contains u = true → bit (s.cu.failRec[0]) 0 = false →
     ∃ t, exec (.fenceTimeout u) s = .next t ∧ t.cu.failstop = true ∧ t.cu.failN = true
       ∧ fld (t.cu.failRec[0]) 63 48 = 0x0B01 ∧ ∀ c, (t.core c).sq.st = .fault)

/-- R146, R288, R289: the event of a faulted core makes a record of its fault, holds the step-start tollgates and stops the running cores. The
window of the oldest unclassified fault ends: with a member lost in the window the record is of class 2 and nothing else happens; else it is
of class 1, the other members are told, the partition is held and the record is reported. A member that hears of a PROGRAM fault stops its
running cores and is held. -/
def Obligations.FaultServiceRuns : Prop :=
  (∀ (c : CoreId) (s : State), s.cu.failstop = false → s.coreFaults.contains c = true →
     ∃ t r, exec (.coreFaultEvent c) s = .next t ∧ t.fsvc.records = s.fsvc.records ++ [r] ∧ r.phys = c ∧ r.cls = 0
       ∧ r.sqFault = (s.core c).sq.fault ∧ r.timeNs = s.ck.ns ∧ r.svc = s.svc
       ∧ t.coreFaults = s.coreFaults.erase c
       ∧ (∀ d, (t.core d).sq.st = if (s.core d).sq.st = .run then .stopped else (s.core d).sq.st)
       ∧ (∀ d, (t.core d).cm = (s.core d).cm) ∧ t.tier = s.tier)
  ∧ (∀ (s : State) (r : FaultRecord), s.cu.failstop = false → s.fsvc.records.find? (fun r => r.cls == 0) = some r →
     let members := match s.sections with
       | some p => p.members
       | none => []
     let classed (n : Byte) : List FaultRecord := s.fsvc.records.map fun x => if x = r then { r with cls := n } else x
     ∃ t, exec .faultClassify s = .next t ∧ t.cores = s.cores
       ∧ ((∃ w ∈ s.cu.losses, w.1 ∈ members ∧ r.timeNs.toNat ≤ w.2 + 5000000000 ∧ w.2 < r.timeNs.toNat + 300000) →
           t.fsvc.held = s.fsvc.held ∧ t.out = s.out ∧ t.fsvc.records = classed 2)
       ∧ ((∀ w ∈ s.cu.losses, w.1 ∈ members → ¬(r.timeNs.toNat ≤ w.2 + 5000000000 ∧ w.2 < r.timeNs.toNat + 300000)) →
           t.fsvc.held = true ∧ t.fsvc.records = classed 1
           ∧ t.out = s.out ++ ((members.filter (· != s.svc)).map Out.programFault)
               ++ [.kdmp 0x40 s.ms.reports ({ r with cls := 1 } : FaultRecord).bytes]))
  ∧ (∀ (svc : BitVec 16) (s : State), s.cu.failstop = false →
     ∃ t, exec (.programFault svc) s = .next t ∧ t.fsvc.held = true ∧ t.fsvc.records = s.fsvc.records ∧ t.out = s.out
       ∧ (∀ d, (t.core d).sq.st = if (s.core d).sq.st = .run then .stopped else (s.core d).sq.st) ∧ t.tier = s.tier)

/-- R56, R60, R71 to R73, R77: the oldest load of a path, in its a-cycle or after it, lands in the stirrup set with what its reads have brought,
its scales when it has them, and sets FRESH; the active set stays. When the next entry of a list is due and its row has been read: an entry
that is not valid is passed over; one whose line leaves the declared region faults the core, and the list ends; one that may enter streams
its line into its row group, after INIT has opened the tile or zeroed the group, and with FIN the tile is in CHECK. -/
def Obligations.LoadsAndListEntriesLand : Prop :=
  (∀ (c : CoreId) (path : LdsPath) (x : PendLoad) (rest : List PendLoad) (s : State), s.cu.failstop = false →
     (if path = .wstream then (s.core c).me.pendWs else (s.core c).me.pendCm) = x :: rest → x.at_ ≤ (s.core c).sq.clk →
     let me := (s.core c).me
     ∃ t, exec (.ldsWriteBeat c path) s = .next t ∧ s.onlyCore t c
       ∧ (t.core c).me.stirrup.image = x.image
       ∧ (t.core c).me.stirrup.scale = x.scale ++ me.stirrup.scale.drop x.scale.length
       ∧ ((t.core c).me.stirrup.source.map fun y => (y.path, y.addr)) = some (x.src.path, x.src.addr)
       ∧ (t.core c).me = { me with
           stirrup := (t.core c).me.stirrup, fresh := true
           pendWs := if path = .wstream then rest else me.pendWs, pendCm := if path = .wstream then me.pendCm else rest }
       ∧ ∃ k, k = s.core c ∧ t.core c = { k with me := (t.core c).me })
  ∧ (∀ (c : CoreId) (l : ListRest) (s : State), s.cu.failstop = false → s.errs = [] → (s.core c).me.list = some l →
     l.at_ ≤ (s.core c).sq.clk → 8 * (l.next + 1) ≤ l.rows.length →
     let me := (s.core c).me
     let clk := (s.core c).sq.clk
     let e : Word := BitVec.ofNat 64 (ofLe (slice l.rows (8 * l.next) 8))
     let n := fld e 54 51
     let next := if l.next = l.last then none else some { l with next := l.next + 1, at_ := l.at_ + 1 }
     (bit e 63 = false → ∃ t, exec (.mmaListEntry c) s = .next t
         ∧ (t.core c).me = { me with list := next } ∧ (t.core c).sq = (s.core c).sq ∧ s.onlyCore t c)
     ∧ (bit e 63 = true → fld e 8 0 < l.rlo ∨ l.rlo + l.rlen + 1 ≤ fld e 8 0 → (s.core c).sq.st = .run →
         ∃ t, exec (.mmaListEntry c) s = .next t ∧ (t.core c).sq.st = .fault ∧ (t.core c).me.list = none
           ∧ (t.core c).me.acc = me.acc ∧ ((s.core c).sq.fault = 0 → fld (t.core c).sq.fault 63 48 = 0x0206))
     ∧ (bit e 63 = true → l.rlo ≤ fld e 8 0 → fld e 8 0 < l.rlo + l.rlen + 1 → n < 8 →
         (if bit e 47 then (vget me.tiles n).st = .free ∧ vget me.tdAt l.td.toNat ≤ clk ∧ descOk (vget me.td l.td.toNat) = true
           else (vget me.tiles n).isOpen clk = true) →
         let g : Nat × BitVec 8 := (fld e 8 0, BitVec.ofNat 8 (fld e 62 55))
         let me1 := beginContribution me n (vget me.td l.td.toNat) (fld e 50 48) [g] l.colMask (bit e 47)
         ∃ t, exec (.mmaListEntry c) s = .next t ∧ s.onlyCore t c
           ∧ (t.core c).me = { finishContribution (enterTile me1 n (fld e 50 48) g l.colMask) n (bit e 46) (clk + 4) with
               list := next, accUntil := clk + 4 }))

/-- R79 to R83, R83 to R85: a tile whose check has run its three a-cycles joins the finished-tile queue when it passes; one that fails is
replayed, or, after two replays or with an overflowed log, the package fail-stops with ME_CHK_PERSIST. When the pending write beats have
landed, a replay takes 20 + Σ c_i a-cycles, which are counted; a tile of one record is zeroed and streamed again from the record's source;
when what the replay reads is what the contribution used and the check passes, the tile joins the queue and both resident sets are loaded
again from their sources; else the next replay begins. That a replay compares what it reads is the model's choice (log entry 110). -/
def Obligations.TilesCheckAndReplay : Prop :=
  (∀ (c : CoreId) (tile : BitVec 3) (s : State), s.cu.failstop = false → s.errs = [] →
     let k := s.core c
     let x := vget k.me.tiles tile.toNat
     x.st = .check → x.freeAt + 3 ≤ k.sq.clk →
     (tilePasses k.me tile.toNat = true → k.me.ftq.length < 4 → ∃ t, exec (.tileCheck c tile) s = .next t
         ∧ (t.core c).me.ftq = k.me.ftq ++ [ftqEntry k.me tile.toNat k.sq.cycle.toNat]
         ∧ (vget (t.core c).me.tiles tile.toNat).st = .queued ∧ (t.core c).me.acc = k.me.acc ∧ s.onlyCore t c)
     ∧ (tilePasses k.me tile.toNat = true → 4 ≤ k.me.ftq.length → ∃ t, exec (.tileCheck c tile) s = .next t
         ∧ (t.core c).me.ftq = k.me.ftq ∧ (vget (t.core c).me.tiles tile.toNat).st = .done)
     ∧ (tilePasses k.me tile.toNat = false → replayable x = true → x.replays < 2 → ∃ t, exec (.tileCheck c tile) s = .next t
         ∧ (vget (t.core c).me.tiles tile.toNat).st = .replay
         ∧ (vget (t.core c).me.tiles tile.toNat).replays = x.replays + 1 ∧ t.cu.failstop = false)
     ∧ (tilePasses k.me tile.toNat = false → (replayable x = false ∨ 2 ≤ x.replays) → bit (s.cu.failRec[0]) 0 = false →
         ∃ t, exec (.tileCheck c tile) s = .next t ∧ t.cu.failstop = true ∧ fld (t.cu.failRec[0]) 63 48 = 0x0208))
  ∧ (∀ (c : CoreId) (tile : BitVec 3) (s : State), s.works → s.calm c →
     let k := s.core c
     let n := tile.toNat
     let x := vget k.me.tiles n
     let image (y : Source) : List Byte := if y.path = .wstream then s.tierFetch y.addr 2048 else s.cmRead c y.addr 2048
     let scale (y : Source) : List Byte := match y.scale with
       | none => []
       | some (a, w) => s.cmRead c a w
     let again (set : StatSet) : StatSet := match set.source with
       | none => set
       | some y => set.load y (image y) (scale y)
     x.st = .replay → k.me.pendWs = [] → k.me.pendCm = [] →
     (∃ t, exec (.tileReplay c tile) s = .next t ∧ (t.core c).sq.clk = k.sq.clk + replayCycles x
       ∧ (t.core c).me.replayCyc = satWord k.me.replayCyc (replayCycles x))
     ∧ (∀ (r : Contribution) (y : Source), x.log = [r] → r.source = some y →
         let me0 : Me := { k.me with
           active := k.me.active.load y (image y) (scale y)
           acc := Mem.write k.me.acc (accAddr n 0 0) (List.replicate (accAddr (n + 1) 0 0 - accAddr n 0 0) 0)
           tiles := vset k.me.tiles n { x with lanes := [] } }
         let me1 := (r.groups.zipIdx).foldl (fun me g => streamGroup me n x.desc (r.row0 + g.2) g.1.1 g.1.2 r.colMask) me0
         ∃ t, exec (.tileReplay c tile) s = .next t
           ∧ (r.same me0 = true → tilePasses me1 n = true → k.me.ftq.length < 4 →
               (t.core c).me.acc = me1.acc ∧ (vget (t.core c).me.tiles n).st = .queued
               ∧ (t.core c).me.active = again k.me.active ∧ (t.core c).me.stirrup = again k.me.stirrup)
           ∧ (r.same me0 = false ∨ tilePasses me1 n = false → replayable x = true → x.replays < 2 →
               (vget (t.core c).me.tiles n).st = .replay ∧ (vget (t.core c).me.tiles n).replays = x.replays + 1
               ∧ (t.core c).me.active = k.me.active)))

/-- R11, R160, R170: CM_ASYNC_MASK takes whole groups on a core that is IDLE or halted, before SEAL; else the write completes REFUSED(SEALED),
REFUSED(BUSY) or REFUSED(MASK), in that order, and changes nothing. A scrub of a bank starts on a halted core only; when it completes, every
corrected granule of the bank has been written back and counted, and no byte of the memory has changed. -/
def Obligations.AsyncMaskAndScrub : Prop :=
  (∀ (c : CoreId) (v : Word) (s : State), s.cu.failstop = false → s.fusedOff c = false →
     let k := s.core c
     let idle := k.sq.st = .idle ∨ k.halted = true
     let whole := ∀ g, g < 8 → fld v (4 * g + 3) (4 * g) = 0 ∨ fld v (4 * g + 3) (4 * g) = 15
     let done (t : State) (r : Status) : State := t.emit (.mgmt (coreAddr c 1 0) true r 0)
     (s.sealed = false → idle → whole → exec (.cmAsyncMaskWrite c v) s
         = .next (done (s.setCore c { k with cm := { k.cm with asyncMask := BitVec.ofNat 32 v.toNat } }) .ok))
     ∧ (s.sealed = true → exec (.cmAsyncMaskWrite c v) s = .next (done s (.refused .sealed)))
     ∧ (s.sealed = false → ¬idle → exec (.cmAsyncMaskWrite c v) s = .next (done s (.refused .busy)))
     ∧ (s.sealed = false → idle → ¬whole → exec (.cmAsyncMaskWrite c v) s = .next (done s (.refused .mask))))
  ∧ (∀ (c : CoreId) (v : Word) (s : State), s.cu.failstop = false → s.fusedOff c = false →
     let k := s.core c
     let done (t : State) (r : Status) : State := t.emit (.mgmt (coreAddr c 1 0x38) true r 0)
     (k.halted = true → k.cm.scrubBusy = false → exec (.cmScrubStart c v) s = .next (done (s.setCore c { k with cm := { k.cm with
         scrubBank := BitVec.ofNat 5 (fld v 4 0), scrubBusy := bit v 5 } }) .ok))
     ∧ (k.halted = false ∨ k.cm.scrubBusy = true → exec (.cmScrubStart c v) s = .next (done s (.refused .busy)))
     ∧ (k.cm.scrubBusy = true → s.errs = [] → exec (.cmScrubComplete c) s
         = .next (s.setCore c { k with cm := { k.cm with scrubBusy := false } }))
     ∧ (k.cm.scrubBusy = true → (∀ e ∈ s.errs, e.fold = false ∧ e.nbits < 3) →
         ∃ t, exec (.cmScrubComplete c) s = .next t ∧ (t.core c).cm.mem = k.cm.mem ∧ t.cu.failstop = false
           ∧ ∀ e ∈ t.errs, e ∈ s.errs ∧ ¬(e.store = .cm ∧ e.core = c ∧ cmBank e.addr = k.cm.scrubBank.toNat)))

/-- R19, R157, R161, R162, R163: an asynchronous access to a core that the part does not have, or that leaves the async banks, or writes part of
a granule, is refused to its source and has no effect on core memory; any other joins the buffer, one entry for each row that it touches.
The row at the head of the async buffer waits while its bank is taken or asked for; when the bank is free, or the guard has taken it, the
row takes it: a write changes its bytes and no other, a read answers its source. When the head row of the buffer has waited 64 a-cycles its
guard fires, is counted, and takes the row's bank in the next a-cycle; a scheduled access that asks for the bank in that a-cycle is held for
it, which is counted and recorded as a deviation. The command of the guard lets its a-cycles pass first, which is the model's (log entry
109). -/
def Obligations.AsyncPortServes : Prop :=
  (∀ (c : CoreId) (a : AsyncAccess) (s : State), a.wf = true → s.cu.failstop = false →
     let k := s.core c
     let rows := rowPieces (a.len / 256 + 2) a.addr.toNat a.len
     let inside := a.addr.toNat + a.len ≤ 2 ^ 23 ∧ insideAsync k a.addr.toNat a.len = true
     let refused (t : State) (r : Reason) : State := t.emit (.async a.src.toNat (.refused r) [])
     let entry (x : Nat × Nat) : AsyncRow :=
       if a.write then .write x.1 (slice a.data (x.1 - a.addr.toNat) x.2) a.src else .read x.1 x.2 a.src
     let counted := s.modCm c fun m => { m with asyncStat := satAdd m.asyncStat 63 48 1 }
     (s.fusedOff c = true → exec (.asyncArrival c a) s = .next (refused s .disabled))
     ∧ (s.fusedOff c = false → ¬inside → exec (.asyncArrival c a) s = .next (refused counted .asyncBank))
     ∧ (s.fusedOff c = false → inside → a.write = true → (a.addr.toNat % 32 ≠ 0 ∨ a.len % 32 ≠ 0) →
         exec (.asyncArrival c a) s = .next (refused counted .align))
     ∧ (s.fusedOff c = false → inside → (a.write = true → a.addr.toNat % 32 = 0 ∧ a.len % 32 = 0) →
         exec (.asyncArrival c a) s = .next (s.modCm c fun m => { m with asyncBuf := m.asyncBuf ++ rows.map entry })))
  ∧ (∀ (c : CoreId) (row : AsyncRow) (rest : List AsyncRow) (s : State), s.cu.failstop = false → s.errs = [] →
     (s.core c).cm.asyncBuf = row :: rest →
     let k := s.core c
     let serves := k.cm.headServed = true ∨ k.bankOpen (cmBank row.addr) = true
     (¬serves → exec (.asyncRowLand c) s = .next s)
     ∧ (∀ (a : Nat) (data : List Byte) (src : BitVec 4), serves → row = .write a data src → ∃ t, exec (.asyncRowLand c) s = .next t
         ∧ (t.core c).cm.asyncBuf = rest ∧ t.out = s.out ++ [.async src.toNat .ok []]
         ∧ (t.core c).cm.headWait = 0 ∧ (t.core c).cm.guardAt = none
         ∧ (t.core c).bankFree (cmBank a) = false
         ∧ Mem.read (t.core c).cm.mem a data.length = data
         ∧ ∀ x, x < a ∨ a + data.length ≤ x → Mem.get (t.core c).cm.mem x = Mem.get k.cm.mem x)
     ∧ (∀ (a len : Nat) (src : BitVec 4), serves → row = .read a len src → ∃ t, exec (.asyncRowLand c) s = .next t
         ∧ (t.core c).cm.asyncBuf = rest ∧ t.out = s.out ++ [.async src.toNat .ok (Mem.read k.cm.mem a len)]
         ∧ (t.core c).cm.mem = k.cm.mem))
  ∧ (∀ (c : CoreId) (row : AsyncRow) (rest : List AsyncRow) (s : State), s.cu.failstop = false → (s.core c).cm.asyncBuf = row :: rest →
     let k := s.core c
     (64 ≤ k.cm.headWait → k.cm.guardAt = none → k.cm.headServed = false →
       exec (.asyncGuardFire c 0) s = .next (s.modCm c fun m => { m with
         guardAt := some (k.sq.clk + 1), asyncStat := satAdd m.asyncStat 23 8 1 }))
     ∧ (k.cm.headWait < 64 → exec (.asyncGuardFire c 0) s = .next s)
     ∧ (∀ n, exec (.asyncGuardFire c n) s = exec (.asyncGuardFire c 0) (s.pass c n))
     ∧ (∀ (a : MemAsk) (r : Nat), k.cm.guardAt = some k.sq.clk → k.cm.inUse = [] → k.cm.asks = [a] → a.port = .bank → a.rows = [r] →
         a.at_ = k.sq.clk → cmBank (256 * r) = cmBank row.addr →
         let (j, served, held) := k.arbitrate
         served = [] ∧ held = [a] ∧ j.cm.headServed = true ∧ j.cm.collide = satAdd k.cm.collide 31 16 1
           ∧ j.sq.devTotal = satWord k.sq.devTotal (1 - k.sq.counted) ∧ j.cm.mem = k.cm.mem
           ∧ j.cm.asks = [{ a with at_ := a.at_ + 1, stamps := a.stamps.map Stamp.later }]))

/-- R165, R376: management reads and writes the core memory of a halted core when the bank is free, which it then keeps, a write for
three a-cycles; on a core that is not halted a write, or a read outside the async banks, completes REFUSED(BUSY), and a read inside them
joins the async port. In a fail-stop every access completes REFUSED(FAILED). -/
def Obligations.ManagementReachesCoreMemory : Prop :=
  ∀ (c : CoreId) (a : BitVec 23) (v : Word) (s : State), s.fusedOff c = false → a.toNat % 8 = 0 →
    let k := s.core c
    let free := k.bankOpen (cmBank a.toNat) = true
    let taken (n : Nat) : List (Nat × PortUse) :=
      [(k.sq.clk + n, { port := .bank, unit := cmBank a.toNat, row := a.toNat / 256, code := 15, write := false })]
    (s.cu.failstop = false → k.halted = true → s.errs = [] → free →
        exec (.mgmtCoreMemoryAccess c a false v) s
          = .next ((s.modCm c fun m => { m with inUse := m.inUse ++ taken 0 }).emit
              (.mgmt (apertureAddr c a.toNat) false .ok (Mem.word k.cm.mem a.toNat))))
    ∧ (s.cu.failstop = false → k.halted = true → s.errs = [] → free → ∃ t, exec (.mgmtCoreMemoryAccess c a true v) s = .next t
        ∧ Mem.word (t.core c).cm.mem a.toNat = v ∧ (t.core c).cm.inUse = k.cm.inUse ++ taken 2
        ∧ ∀ x, x < a.toNat ∨ a.toNat + 8 ≤ x → Mem.get (t.core c).cm.mem x = Mem.get k.cm.mem x)
    ∧ (s.cu.failstop = false → k.halted = false → exec (.mgmtCoreMemoryAccess c a true v) s
        = .next (s.emit (.mgmt (apertureAddr c a.toNat) true (.refused .busy) 0)))
    ∧ (s.cu.failstop = false → k.halted = false → insideAsync k a.toNat 8 = false → exec (.mgmtCoreMemoryAccess c a false v) s
        = .next (s.emit (.mgmt (apertureAddr c a.toNat) false (.refused .busy) 0)))
    ∧ (s.cu.failstop = false → k.halted = false → insideAsync k a.toNat 8 = true → exec (.mgmtCoreMemoryAccess c a false v) s
        = .next (s.modCm c fun m => { m with asyncBuf := m.asyncBuf ++ [.mgmtRead a.toNat] }))
    ∧ (s.cu.failstop = true → ∀ w, exec (.mgmtCoreMemoryAccess c a w v) s
        = .next (s.emit (.mgmt (apertureAddr c a.toNat) w (.refused .failed) 0)))

/-- R174, R179, R199, R376: a slow-path access of eight bytes is a request of requester 10 at its column's port: for the block that holds
them, or for a read-modify-write of their granule; it is answered when the port has served it. An address that is not a multiple of eight
is refused, one beyond the window is unmapped; in a fail-stop reads answer and writes are refused. -/
def Obligations.TierSlowPath : Prop :=
  ∀ (a : BitVec 40) (w : Bool) (v : Word) (s : State),
    let n := a.toNat
    let f := n - 0x8000000000
    let ta := f / 0x3000000 * 2 ^ 26 + f % 0x3000000
    let col := f / 0x3000000 / 8
    let sd : Side := if w then .write else .read
    let p := s.port col sd
    let req : PortReq := { requester := 10, ta := BitVec.ofNat 37 (if w then ta / 1024 * 1024 else ta / 2048 * 2048), beats := 1, data := [] }
    let e : PortEntry := { req, job := if w then .slowWrite ta v else .slowRead ta, from_ := s.colClk col }
    let mapped := 0x8000000000 ≤ n ∧ n < 0x8000000000 + 2048 * 0x3000000
    (n % 8 ≠ 0 → exec (.tierSlowPathAccess a w v) s = .next (s.emit (.mgmt n w (.refused .align) 0)))
    ∧ (n % 8 = 0 → ¬mapped → exec (.tierSlowPathAccess a w v) s = .next (s.emit (.mgmt n w (.refused .unmapped) 0)))
    ∧ (n % 8 = 0 → mapped → s.cu.failstop = true → w = true →
        exec (.tierSlowPathAccess a w v) s = .next (s.emit (.mgmt n true (.refused .failed) 0)))
    ∧ (n % 8 = 0 → mapped → s.cu.failstop = true → w = false → s.errs = [] →
        exec (.tierSlowPathAccess a w v) s = .next (s.emit (.mgmt n false .ok (Mem.word s.tier f))))
    ∧ (n % 8 = 0 → mapped → s.cu.failstop = false → p.queue = [] → ∃ t, exec (.tierSlowPathAccess a w v) s = .next t
        ∧ t.port col sd = { p with
            queue := [{ e with owner := true }], guarded := false, grantAt := s.colClk col, limit := fld s.pn.arbBurst 24 16
            headAt := s.colClk col }
        ∧ t.tier = s.tier ∧ t.out = s.out ∧ t.cores = s.cores)
    ∧ (n % 8 = 0 → mapped → s.cu.failstop = false → p.owned = true → exec (.tierSlowPathAccess a w v) s
        = .next (s.setPort col sd { p with queue := p.queue ++ [e] }))

/-- R173, R174, R176, R179, R180, R200, R267, R268, R269, R270, R302: a request that names whole blocks, or whole granules in its units, joins
its side's queue, and owns the side from the next a-cycle on when the side is idle; when the head has counted 1,024 a-cycles the guard
grants it the side; a grant that has run for its limit ends, and its owner keeps the beats that it has made and its place among the waiting.
The command of the guard lets its a-cycles pass first, which is the model's (log entry 109). When the owner's last beat is made it leaves
the queue: an agent outside is told OK, or how often the transfer restarted, with the blocks that were read, or with its bytes in tier
memory; a slow-path access is answered, a write of it changes its eight bytes only; a chunk's row is in tier memory and counted. No other
byte changes. While the core above asks for the side of a grant that is not guarded, the beat is not made. -/
def Obligations.ColumnPortsGrantAndComplete : Prop :=
  (∀ (col : BitVec 8) (side : Side) (r : PortReq) (s : State), s.cu.failstop = false →
     let p := s.port col.toNat side
     let clk := s.colClk col.toNat
     let limit := fld s.pn.arbBurst 24 16
     let fits := portReqFits r col.toNat side = true
     (¬fits → exec (.columnPortAsyncRequest col side r) s = .next s)
     ∧ (fits → p.queue = [] → ∃ t, exec (.columnPortAsyncRequest col side r) s = .next t
         ∧ t.port col.toNat side = { p with
             queue := [{ req := r, from_ := clk, owner := true }], guarded := false, grantAt := clk, limit, headAt := clk }
         ∧ { t with tm := s.tm, pn := s.pn } = s)
     ∧ (fits → p.owned = true → exec (.columnPortAsyncRequest col side r) s
         = .next (s.setPort col.toNat side { p with queue := p.queue ++ [{ req := r, from_ := clk }] }))
     ∧ (∀ e rest, p.queue = e :: rest → p.guarded = false → p.headAt + 1024 ≤ clk →
         ∃ t, exec (.columnPortGuard col side 0) s = .next t
         ∧ t.port col.toNat side = { p with
             queue := { e with kept := p.made e clk, owner := true } :: rest.map fun x => { x with kept := p.made x clk, owner := false }
             guarded := true, grantAt := clk, limit }
         ∧ { t with tm := s.tm, pn := s.pn } = s)
     ∧ (∀ n, exec (.columnPortGuard col side n) s = exec (.columnPortGuard col side 0) (s.pass col n))
     ∧ (∀ e, p.queue = [e] → e.owner = true → e.from_ ≤ clk → p.grantAt + p.limit ≤ clk → e.kept + (clk - p.grantAt) < e.req.beats →
         ∃ t, exec (.burstLimitExpiry col side) s = .next t
         ∧ t.port col.toNat side = { p with
             queue := [{ e with kept := e.kept + (clk - p.grantAt) }], guarded := false, grantAt := clk, limit, headAt := clk }
         ∧ { t with tm := s.tm, pn := s.pn } = s))
  ∧ (∀ (col : BitVec 8) (side : Side) (e : PortEntry) (s : State), s.cu.failstop = false → s.errs = [] →
     let p := s.port col.toNat side
     let clk := s.colClk col.toNat
     let st : Status := if e.preempted = 0 then .ok else .restarted e.preempted
     let f := taFlat e.req.ta.toNat
     let asked := p.guarded = false ∧ ∃ a ∈ (s.core col).due, a.port = sidePort side
     let wrote (t : State) (f : Nat) (data : List Byte) : Prop := Mem.read t.tier f data.length = data
       ∧ ∀ x, x < f ∨ f + data.length ≤ x → Mem.get t.tier x = Mem.get s.tier x
     p.queue.head? = some e → e.owner = true →
     (asked → exec (.asyncTransferComplete col side) s = .next s)
     ∧ (e.kept + (clk - p.grantAt) < e.req.beats → exec (.asyncTransferComplete col side) s = .next s)
     ∧ (¬asked → e.req.beats ≤ e.kept + (clk - p.grantAt) → bit s.cu.mirrorCfg 63 = false →
         ∃ t, exec (.asyncTransferComplete col side) s = .next t
           ∧ ((t.port col.toNat side).queue.map fun x => x.req) = p.queue.tail.map (fun x => x.req)
           ∧ (t.port col.toNat side).headAt = clk
           ∧ (e.job = .outside → side = .write → wrote t f e.req.data ∧ t.out = s.out ++ [.async e.req.requester.toNat st []])
           ∧ (e.job = .outside → side = .read → e.req.requester ≠ 8 → t.tier = s.tier
               ∧ t.out = s.out ++ [.async e.req.requester.toNat st (Mem.read s.tier f (2048 * e.req.beats))])
           ∧ (∀ a, e.job = .slowRead a → t.tier = s.tier ∧ t.out = s.out ++ [.mgmt (slowAddr a) false st (Mem.word s.tier (taFlat a))])
           ∧ (∀ a v, e.job = .slowWrite a v → wrote t (taFlat a) (wordBytes v) ∧ t.out = s.out ++ [.mgmt (slowAddr a) true st 0])
           ∧ (e.job = .chunk → wrote t f e.req.data ∧ t.out = s.out ∧ t.ws.bytes = satWord s.ws.bytes e.req.data.length)
           ∧ (e.job = .scrubRead → t.tier = s.tier ∧ t.out = s.out)))

/-- R200, R264, R265, R274, R275: while the patrol scrub is enabled, a tick asks the column's port for the block that the pass has reached, as
requester 9; the tick of the last column moves the pass on to the next block, and after the last block to block 0 with one more pass
counted; tier memory keeps what it holds. A guard takes its slot in the next a-cycle; a scheduled row of a core that has it then is held,
moves one a-cycle later, is counted and recorded, and deviates the core by one a-cycle; a stalled row fail-stops the package with PN_STALL;
the summary of deviations names how many enabled cores deviate and their total. The command of the guard lets its a-cycles pass first, which
is the model's (log entry 109). -/
def Obligations.PatrolAndNetworkEvents : Prop :=
  (∀ (col : BitVec 8) (s : State), s.cu.failstop = false → s.ck.rest = false → s.ck.hold = none → bit s.tm.scrubCfg 16 = true →
     let block := fld s.tm.scrubStat 17 0
     ∃ t, exec (.patrolScrubTick col) s = .next t ∧ { t with tm := s.tm, pn := s.pn } = s
       ∧ (col ≠ 255 → t.tm.scrubStat = s.tm.scrubStat)
       ∧ (col = 255 → t.tm.scrubStat = (if block = 196607 then satAdd (setFld s.tm.scrubStat 17 0 0) 63 32 1
           else setFld s.tm.scrubStat 17 0 (block + 1)))
       ∧ ((s.port col.toNat .read).queue = [] →
           (t.port col.toNat .read).queue = [{
             req := { requester := 9, ta := BitVec.ofNat 37 ((col.toNat * 8 + block / 24576) * 2 ^ 26 + block % 24576 * 2048), beats := 1, data := [] }
             job := .scrubRead, from_ := s.colClk col.toNat, owner := true }]))
  ∧ (∀ (w : NetPlace) (u : NetUse) (s : State), s.cu.failstop = false →
     let x := placeSlot w
     let next := placeClk s w + 1
     let g : NetUse := { slot := x, at_ := next, cls := .guard, owner := { owner := 0, saddle := false, dma := false } }
     (s.pn.uses = [] → exec (.asyncRowGuard w 0) s = .next { s with pn := { s.pn with uses := [g] } })
     ∧ (∀ n, exec (.asyncRowGuard w n) s = exec (.asyncRowGuard w 0) (s.pass (placeCore w) n))
     ∧ (s.pn.uses = [u] → u.slot = x → u.at_ = next → u.cls = .sched → u.owner.saddle = false → x.rows = 1 →
         ∃ t, exec (.asyncRowGuard w 0) s = .next t ∧ t.pn.uses = [g, { u with at_ := next + 1 }]
         ∧ t.pn.schedHold = vmod s.pn.schedHold x.quarter (fun n => satAdd n 15 0 1)
         ∧ (s.pn.holdFirst = 0 → fld t.pn.holdFirst 62 60 = x.where_ ∧ fld t.pn.holdFirst 59 58 = 1
             ∧ fld t.pn.holdFirst 47 40 = u.owner.owner.toNat)
         ∧ (s.pn.holdFirst ≠ 0 → t.pn.holdFirst = s.pn.holdFirst)
         ∧ (t.core u.owner.owner).sq.devTotal
             = satWord (s.core u.owner.owner).sq.devTotal (1 - (s.core u.owner.owner).sq.counted)
         ∧ (t.core u.owner.owner).cm = (s.core u.owner.owner).cm)
     ∧ (bit (s.cu.failRec[0]) 0 = false → ∃ t, exec (.rowStall w) s = .next t ∧ t.cu.failstop = true
         ∧ fld (t.cu.failRec[0]) 63 48 = 0x0703 ∧ fld (t.cu.failRec[0]) 47 40 = w.stop.toNat)
     ∧ (let on := (List.range 256).filter fun i => !s.fusedOff (BitVec.ofNat 8 i)
        let total (i : Nat) : Nat := (s.core (BitVec.ofNat 8 i)).sq.devTotal.toNat
        s.ck.rest = false → s.ck.hold = none → ∃ t, exec .devSummaryRefresh s = .next t ∧ { t with pn := s.pn } = s
          ∧ fld t.pn.devSummary 63 55 = (on.filter fun i => total i ≠ 0).length
          ∧ fld t.pn.devSummary 46 0 = min ((on.map total).sum) (2 ^ 47 - 1)))

/-- R203: the word at 8w of the page-map window holds entries 2w and 2w + 1 in its low and high half; a word written is read back
there, at any time, and no other byte of the map changes. -/
def Obligations.PageMapWrites : Prop :=
  ∀ (w : BitVec 20) (v : Word) (s : State), s.cu.failstop = false →
    let even := 2 * w.toNat
    ∃ t, exec (.pageMapWrite w v) s = .next t ∧ (mgmtRead (0x0500000000 + 8 * w.toNat) t).1 = (.ok, v)
      ∧ pageEntry t (even / 4096) (even % 4096) = v.extractLsb' 0 32
      ∧ pageEntry t ((even + 1) / 4096) ((even + 1) % 4096) = v.extractLsb' 32 32
      ∧ (∀ x, x < 8 * w.toNat ∨ 8 * w.toNat + 8 ≤ x → Mem.get t.pageMap x = Mem.get s.pageMap x)
      ∧ t.tier = s.tier ∧ t.cores = s.cores
      ∧ (bit s.cu.mirrorCfg 63 = false → t.out = s.out ++ [.mgmt (0x0500000000 + 8 * w.toNat) true .ok 0])

/-- R178, R181, R182, R185, R186, R187, R193, R194, R198, R259: the next descriptor of a queue starts; a COPY from core memory to the A-buffer
then moves a row in each a-cycle, which is written two a-cycles after it is read, and nothing else of the memories changes; the head of a
queue is done when its last write has landed and no request, unit or acknowledgement is out, and DONE advances. An acknowledgement that has
landed returns to the oldest descriptor of the queue that awaits one. A unit that has landed at another column's free port is in tier memory
there, and its acknowledgement is on its way; a block request that has landed there is read, and its rows are on their way; either waits an
a-cycle, which is counted, while the port is taken. A look-up waits while the quarter's port serves another core, which is counted and a
deviation; else it records the entry with its slot's generation. After the last one of a transfer of one page, its first beat, 20 a-cycles
after the look-up, faults the core when the entry is not valid or is of another generation than its slot; else the bytes of a page of the
core's own column move, here from tier memory to core memory, while a page of another column sends its block requests. The command of a
look-up lets its a-cycles pass first, which is the model's (log entry 109). -/
def Obligations.DmaMovesRows : Prop :=
  (∀ (c : CoreId) (q : BitVec 2) (d : Desc) (rest : List Desc) (s : State), s.works →
     let k := s.core c
     let x := vget k.dma.queues q.toNat
     x.descs = d :: rest → (∀ y ∈ rest, y.num ≠ d.num) →
     (d.started = false → (∀ y ∈ d :: rest, y.ended = false) → k.frozen = false →
         ∃ t, exec (.dmaDescriptorStart c q) s = .next t ∧ s.onlyCore t c
           ∧ (vget (t.core c).dma.queues q.toNat).descs = { d with started := true, from_ := k.sq.clk, ask := k.cm.nextAsk } :: rest
           ∧ ∀ src dst rows, d.op = .copy .cm src .abuf dst rows → src % 256 = 0 → rows ≤ 512 → d.next = 0 → d.rows = [] →
               s.calm c → k.cm.inUse = [] →
               let u := t.pass c (rows + 2)
               (∀ j, j < rows → Mem.read (u.core c).me.abuf (256 * ((dst + j) % 512)) 256 = Mem.read k.cm.mem (src + 256 * j) 256)
                 ∧ (∀ a, a < 131072 → (∀ j, j < rows → a / 256 ≠ (dst + j) % 512) →
                     Mem.get (u.core c).me.abuf a = Mem.get k.me.abuf a)
                 ∧ (u.core c).cm.mem = k.cm.mem ∧ s.onlyCore u c
                 ∧ (vget (u.core c).dma.queues q.toNat).descs
                   = { d with started := true, from_ := k.sq.clk, ask := k.cm.nextAsk, next := rows } :: rest)
     ∧ (d.started = true → d.ended = false → d.op.total ≤ d.next → d.rows = [] → d.requests = [] → d.units = [] → d.acks = [] →
         (∀ a ∈ k.cm.asks, a.id ≠ d.ask) → ∃ t, exec (.dmaDescriptorDone c q) s = .next t
         ∧ vget (t.core c).dma.queues q.toNat = { x with done := x.done + 1, descs := rest }
         ∧ (t.core c).cm = k.cm ∧ { t with cores := s.cores } = s))
  ∧ (∀ (c : CoreId) (q : BitVec 2) (d : Desc) (s : State), s.works → s.errs = [] →
     let k := s.core c
     let clk := k.sq.clk
     (vget k.dma.queues q.toNat).descs = [d] →
     (∀ t0 more, d.acks = t0 :: more → t0 ≤ clk → ∃ t, exec (.remoteDmaAck c q) s = .next t
         ∧ (vget (t.core c).dma.queues q.toNat).descs = [{ d with acks := more }]
         ∧ (t.core c).cm = k.cm ∧ { t with cores := s.cores } = s)
     ∧ (∀ t0 a data more, d.units = (t0, a, data) :: more → t0 ≤ clk → taColumn a ≠ c.toNat →
         (s.port (taColumn a) .write).queue = [] →
         (portTaken s (taColumn a) .write = false → s.pn.uses = [] → s.pn.stays = [] → data ≠ [] →
           ∃ t, exec (.remoteDmaRequest c q) s = .next t
             ∧ (vget (t.core c).dma.queues q.toNat).descs = [{ d with
                 units := more, acks := d.acks ++ [clk + netLatency (.stop (taColumn a)) (.stop c.toNat)] }]
             ∧ Mem.read t.tier (taFlat a) data.length = data
             ∧ ∀ i, i < taFlat a ∨ taFlat a + data.length ≤ i → Mem.get t.tier i = Mem.get s.tier i)
         ∧ (portTaken s (taColumn a) .write = true → ∃ t, exec (.remoteDmaRequest c q) s = .next t ∧ t.tier = s.tier
             ∧ (t.core c).dma.hold = satAdd k.dma.hold 63 48 1 ∧ (t.core c).cm.mem = k.cm.mem))
     ∧ (∀ t0 a row len more, d.units = [] → d.requests = (t0, a, row, len) :: more → t0 ≤ clk → taColumn a ≠ c.toNat → 0 < len →
         (s.port (taColumn a) .read).queue = [] → portTaken s (taColumn a) .read = false → s.pn.uses = [] → s.pn.stays = [] →
         let n := (a + len - 1) / 256 - a / 256 + 1
         ∃ t, exec (.remoteDmaRequest c q) s = .next t ∧ t.tier = s.tier
           ∧ (vget (t.core c).dma.queues q.toNat).descs = [{ d.keep a row (s.tierFetch a len) with requests := more }]
           ∧ (t.core c).cm.asks = k.cm.asks ++ (arrivalAsks { c, q := q.toNat, num := d.num } d a row clk (List.replicate n 0)).map
               fun x => { x with id := d.ask }))
  ∧ (∀ (c : CoreId) (q : BitVec 2) (d : Desc) (slot l loc g : Nat) (s : State), s.works → s.errs = [] →
     let k := s.core c
     let t0 := k.sq.clk
     let rows := (l + 32 * g + 255) / 256 - l / 256
     let e := pageEntry s slot (l / 49152 + d.looked.length)
     let looked := d.looked ++ [(e, vget s.tm.slotGen slot)]
     (vget k.dma.queues q.toNat).descs = [d] → d.op = .paged false slot l .cm loc g → 0 < g → d.started = true → d.ended = false →
     d.from_ ≤ t0 → k.frozen = false → d.looked.length < pagesOf l g →
     (∀ n, exec (.pageMapLookup c q n) s = exec (.pageMapLookup c q 0) (s.pass c n))
     ∧ (lookTaken s c = true → ∃ t, exec (.pageMapLookup c q 0) s = .next t
         ∧ (vget (t.core c).dma.queues q.toNat).descs = [{ d with from_ := t0 + 1 }]
         ∧ (t.core c).dma.hold = satAdd k.dma.hold 47 32 1 ∧ (t.core c).sq.devTotal = satWord k.sq.devTotal (1 - k.sq.counted))
     ∧ (lookTaken s c = false → ∃ t, exec (.pageMapLookup c q 0) s = .next t
         ∧ (vget (t.core c).dma.queues q.toNat).descs = [{ d with looked, from_ := t0 + 1 }]
         ∧ t.tm.pmStat = satAdd s.tm.pmStat 63 32 1 ∧ (t.core c).cm.mem = k.cm.mem ∧ t.tier = s.tier
         ∧ (looked.length < pagesOf l g → (t.core c).cm.asks = k.cm.asks)
         ∧ (d.looked = [] → pagesOf l g = 1 → s.calm c → k.cm.inUse = [] → loc % 256 = l % 256 →
             (bit e 31 = false ∨ fld e 9 2 ≠ (vget s.tm.slotGen slot).toNat → k.sq.st = .run → k.sq.fault = 0 →
               let u := t.pass c 21
               (u.core c).sq.st = .fault ∧ fld (u.core c).sq.fault 63 48 = (if bit e 31 then 0x0506 else 0x0505)
                 ∧ (u.core c).cm.mem = k.cm.mem)
             ∧ (bit e 31 = true → fld e 9 2 = (vget s.tm.slotGen slot).toNat → taColumn (entryTa e) = c.toNat → d.rows = [] →
                 let u := t.pass c (rows + 24)
                 (u.core c).cm.mem = Mem.write k.cm.mem loc (s.tierFetch (entryTa e + l % 49152) (32 * g)) ∧ u.tier = s.tier)
             ∧ (bit e 31 = true → fld e 9 2 = (vget s.tm.slotGen slot).toNat → taColumn (entryTa e) ≠ c.toNat →
                 s.pn.uses = [] → s.pn.stays = [] →
                 let u := t.pass c (rows + 24)
                 (u.core c).cm.mem = k.cm.mem ∧ u.tier = s.tier
                   ∧ ∃ x, (vget (u.core c).dma.queues q.toNat).descs = [x] ∧ 0 < x.requests.length))))

/-- R226, R243: a CH.OPEN that lands at a core's receive endpoint is resolved in the order of the table of R226; a join waits at
a queue that is not open, and is refused where another waits; the wait of either ends in NO_LISTENER; the reply to a CH.OPEN opens
the send endpoint with the ring size as credit or closes it with a fault, and the reply to a join makes the handle valid. -/
def Obligations.HandshakesResolve : Prop :=
  (∀ (p : Pkt) (s : State), p.kind = .chOpen → p.dsad = false → Receives p s →
    let t := s.received p
    let c := p.dstUnit
    let e := p.dstEp.toNat
    let r := vget (t.core c).cq.recv e
    let z := 4096 * 2 ^ r.size.toNat
    exec (.handshakeRequest p) s = .next (
      if t.fusedOff c then hsReply t p 4 1 0 r.inc 0
      else if t.fencing (.core c) then hsReply t p 2 7 0 r.inc 0
      else if r.waiting.isSome then hsReply t p 4 3 0 r.inc 0
      else if r.st ≠ .listening then t.modRecv (.core c) e fun r => { r with waiting := some p }
      else if p.fabric && !(p.srcSvc == t.svc && p.srcChip == t.chip) && !insideAsync (t.core c) r.base z then
        hsReply t p 4 4 0 r.inc 0
      else if z < (32 + fld p.arg 63 47 + 255) / 256 * 256 + 256 then hsReply t p 4 5 0 r.inc 0
      else if r.mp.toNat ≤ fld p.arg 46 39 then hsReply t p 4 milepostReason 0 r.inc 0
      else hsReply (t.modRecv (.core c) e fun r => { r with st := .opened, peer := srcPeer p }) p 0 0 (z - 256) r.inc
        (BitVec.ofNat 64 (256 * r.wptr))))
  ∧ (∀ (p : Pkt) (s : State), p.kind = .join → Receives p s →
    let t := s.received p
    let q := queueOf p
    let x := t.queue q
    let home : Home := match q with
      | .local c _ => .core c
      | .saddle _ => .port
    let off : Bool := match q with
      | .local c _ => t.fusedOff c
      | .saddle _ => false
    (x.waiting = [] → off = false → t.fencing home = false → x.st = .closed ∨ x.st = .broken →
      exec (.handshakeRequest p) s = .next (t.modQ q fun x => { x with waiting := [p] }))
    ∧ (x.waiting ≠ [] → off = false → t.fencing home = false →
      exec (.handshakeRequest p) s = .next (hsReply t p 4 3 0 x.inc 0)))
  ∧ (∀ (c : CoreId) (e : BitVec 5) (n : BitVec 8) (s : State) (p : Pkt), s.cu.failstop = false →
    (let r := vget (s.core c).cq.recv e.toNat
     r.waiting = some p → exec (.handshakeWaitExpiry (.ep c e)) s
       = .next (hsReply (s.modRecv (.core c) e.toNat fun r => { r with waiting := none }) p 4 2 0 r.inc 0))
    ∧ (let r := vget s.hp.nrecv n.toNat
       r.waiting = some p → exec (.handshakeWaitExpiry (.nep n)) s
         = .next (hsReply (s.modRecv .port n.toNat fun r => { r with waiting := none }) p 4 2 0 r.inc 0)))
  ∧ (∀ (q : QueueRef) (s : State) (p : Pkt), s.cu.failstop = false → (s.queue q).waiting = [p] →
    exec (.handshakeWaitExpiry (match q with
        | .local c k => .localQueue c k
        | .saddle q => .saddleQueue q)) s
      = .next (hsReply (s.modQ q fun x => { x with waiting := [] }) p 4 2 0 (s.queue q).inc 0))
  ∧ (∀ (p : Pkt) (s : State), p.kind = .resp → fld p.word 5 0 = 1 → p.dsad = false → Receives p s →
    let t := s.received p
    let c := p.dstUnit
    let x := vget (t.core c).cq.send p.dstEp.toNat
    let status := fld p.arg 63 60
    let reason := fld p.arg 59 56
    x.st = .opening → x.inc = p.dstInc →
    (status = 0 → exec (.handshakeReply p) s = .next (t.modSend (.core c) p.dstEp.toNat fun x => { x with
      st := .opened, credit := fld p.arg 55 35, ring := fld p.arg 55 35 + 256, wcopy := p.word.toNat / 256
      peer := { x.peer with inc := p.srcInc, chip := p.srcChip, pinc := p.srcPinc } }))
    ∧ (status ≠ 0 → reason ≠ milepostReason → ∃ u, exec (.handshakeReply p) s = .next u
        ∧ (vget (u.core c).cq.send p.dstEp.toNat).st = .closed ∧ (vget (u.core c).cq.send p.dstEp.toNat).inc = x.inc + 1
        ∧ ((t.core c).sq.st = .run → (u.core c).sq.st = .fault)
        ∧ ((t.core c).cq.fault = 0 → fld (u.core c).cq.fault 63 48 = 0x0606)))
  ∧ (∀ (p : Pkt) (s : State), p.kind = .resp → fld p.word 5 0 = 2 → Receives p s →
    let t := s.received p
    let h := vget (t.core p.dstUnit).cq.handles p.dstEp.toNat
    h.joining = true → (t.core p.dstUnit).inc = p.dstInc → fld p.arg 63 60 = 0 →
    exec (.handshakeReply p) s = .next (t.modCq p.dstUnit fun q => { q with
      handles := vmod q.handles p.dstEp.toNat fun h => { h with
        joining := false, valid := true, qinc := p.srcInc, qword := p.word &&& ~~~63, round := 0 } }))

/-- R19, R156, R162, R230, R231, R238, R380: a message row for an open endpoint asks for its bank in the present a-cycle, and is then at its
place of the ring, or it joins the buffer of the async port; a row for a closed endpoint or another incarnation writes nothing and is
counted, one for a core that the part does not have leaves every core as it was but for what the network counts. A peer-reset notice at an
open endpoint, behind the rows of its channel, places a CLOSE record at the write pointer. -/
def Obligations.MessageRowsLand : Prop :=
  (∀ (p : Pkt) (s : State), p.kind = .chRow → p.dsad = false → Receives p s →
     let t := s.received p
     let c := p.dstUnit
     let k := s.core c
     let r := vget k.cq.recv p.dstEp.toNat
     let a := r.base + 256 * fld p.arg 63 52
     let takes := r.st ≠ .closed ∧ r.inc = p.dstInc
     s.fencing (.core c) = false →
     (s.fusedOff c = false → takes → touchesAsync k r.base r.z = false →
       let u := t.modCore c (·.post [{ code := 13, seq := 0, write := true, rows := [a / 256], at_ := k.sq.clk
                                       move := .ringRow p.dstEp.toNat p a }])
       exec (.messageRowArrival p) s = .next u
         ∧ (s.calm c → k.cm.inUse = [] →
             let v := u.pass c 1
             Mem.read (v.core c).cm.mem a p.body.length = p.body
               ∧ ∀ x, x < a ∨ a + p.body.length ≤ x → Mem.get (v.core c).cm.mem x = Mem.get k.cm.mem x))
     ∧ (s.fusedOff c = false → takes → touchesAsync k r.base r.z = true → k.cm.asyncBuf.length < 16 →
       exec (.messageRowArrival p) s = .next (t.modCm c fun m => { m with asyncBuf := m.asyncBuf ++ [.message p a] }))
     ∧ (s.fusedOff c = false → ¬takes →
       ∃ u, exec (.messageRowArrival p) s = .next u ∧ (∀ d, (u.core d).cm = (s.core d).cm)
         ∧ (bit p.arg 51 = true → (u.core c).cq.ringStat = satAdd k.cq.ringStat 31 0 1))
     ∧ (s.fusedOff c = true →
       ∃ u, exec (.messageRowArrival p) s = .next u ∧ ∀ d, (u.core d).cm = (s.core d).cm ∧ (u.core d).cq = (s.core d).cq))
  ∧ (∀ (p : Pkt) (s : State), p.kind = .peerReset → p.dsad = false → Receives p s →
     (s.net.any fun q => q.kind == .chRow && q.srcUnit == p.srcUnit && q.ssad == p.ssad && q.dstUnit == p.dstUnit
       && q.dsad == p.dsad && q.dstEp == p.dstEp) = false →
     let c := p.dstUnit
     let k := s.core c
     let r := vget k.cq.recv p.dstEp.toNat
     let a := r.base + r.wptr
     r.st = .opened → r.inc = p.dstInc → touchesAsync k r.base r.z = false →
     ∃ u, exec (.peerResetNotice p) s = .next u ∧ (u.core c).cm.mem = k.cm.mem
       ∧ (s.calm c → k.cm.inUse = [] →
           let v := u.pass c 1
           Mem.num (v.core c).cm.mem a 4 = 2 * 2 ^ 30
             ∧ ∀ x, x < a ∨ a + 256 ≤ x → Mem.get (v.core c).cm.mem x = Mem.get k.cm.mem x))

/-- R227, R233, R234, R239, R240, R382: at an endpoint of the packet's incarnation a delivery response completes its message, a
credit return adds its bytes, a close notice breaks the endpoint; at another incarnation each is discarded and counted. -/
def Obligations.RepliesReachSenders : Prop :=
  ∀ (p : Pkt) (s : State), p.dsad = false → bit p.word 6 = false → Receives p s →
    let t := s.received p
    let c := p.dstUnit
    let e := p.dstEp.toNat
    let x := vget (t.core c).cq.send e
    let stale : State := { t with cu := { t.cu with staleReply := satWord t.cu.staleReply 1 } }
    (p.kind = .resp → fld p.word 5 0 = 0 → fld p.arg 63 60 ≤ 1 → x.inc = p.dstInc →
      ∃ fl, exec (.deliveryResponse p) s = .next (t.modSend (.core c) e fun x => { x with
        done := x.done + 1, last := if fld p.arg 63 60 = 0 then 1 else 2, flights := fl }))
    ∧ (p.kind = .resp → fld p.word 5 0 = 0 → fld p.arg 63 60 = 2 ∨ fld p.arg 63 60 = 3 → x.inc = p.dstInc → e < 32 →
      ∃ u, exec (.deliveryResponse p) s = .next u ∧ (vget (u.core c).cq.send e).st = .broken
        ∧ (vget (u.core c).cq.send e).inc = x.inc + 1 ∧ (vget (u.core c).cq.send e).done = x.done + 1
        ∧ ((t.core c).sq.st = .run → x.statusOnly = false → (u.core c).sq.st = .fault)
        ∧ (x.statusOnly = true → (u.core c).sq = (t.core c).sq))
    ∧ (p.kind = .resp → fld p.word 5 0 = 0 → fld p.arg 63 60 ≠ 5 → x.inc ≠ p.dstInc → exec (.deliveryResponse p) s = .next stale)
    ∧ (p.kind = .credit → x.st = .opened → x.inc = p.dstInc → exec (.creditReturn p) s
        = .next (t.modSend (.core c) e fun x => { x with credit := x.credit + fld p.arg 63 43 }))
    ∧ (p.kind = .credit → x.st ≠ .opened ∨ x.inc ≠ p.dstInc → exec (.creditReturn p) s = .next stale)
    ∧ (p.kind = .resp → fld p.arg 63 60 = 5 → x.st = .opened → x.inc = p.dstInc → exec (.closeNotice p) s
        = .next (t.modSend (.core c) e fun x => { x with st := .broken, inc := x.inc + 1, flights := [] }))
    ∧ (p.kind = .resp → fld p.arg 63 60 = 5 → x.st ≠ .opened ∨ x.inc ≠ p.dstInc → exec (.closeNotice p) s = .next stale)

/-- R233, R244: a bundle whose C slot is held for credit, or for the previous contribution, is held to the limit, and its core then faults
with CQ_CREDIT_TIMEOUT in that slot; so does one held for FLOWCTL = 1 when the window of a CQ_FLOW_LIMIT that is not zero ends; where the
hold is over nothing happens. -/
def Obligations.HoldsTimeOut : Prop :=
  ∀ (c : CoreId) (s : State) (n : Nat) (h : CqHold) (idx : Nat), s.works → (s.core c).sq.st = .run →
    (s.core c).sq.fault = 0 → (s.core c).cq.holdStart = some (n, h) →
    let k := s.core c
    let faulted (i : Instr) : Prop := ∃ t, exec i s = .next t ∧ (t.core c).sq.st = .fault
      ∧ fld (t.core c).sq.fault 63 48 = 0x0609 ∧ fld (t.core c).sq.fault 47 45 = 7 ∧ (t.core c).cq.holdStart = none
      ∧ t.coreFaults = s.coreFaults ++ [c] ∧ (t.core c).cm.mem = k.cm.mem
    (h ≠ .flow → k.waitingHold = some (h, idx) → s.still c = true → faulted (.creditHoldTimeout c)
      ∧ ∀ t, exec (.creditHoldTimeout c) s = .next t → (t.core c).sq.clk = k.sq.clk + (n + creditLimit k - k.sq.clk) + 1)
    ∧ (h = .flow → k.waitingHold = some (.flow, idx) → k.cq.flowLimit ≠ 0 → faulted (.flowHoldTimeout c))
    ∧ (k.waitingHold = none → exec (.creditHoldTimeout c) s = .next s ∧ exec (.flowHoldTimeout c) s = .next s)

/-- R43, R53, R238, R245 to R247: a contribution row of an ACTIVE queue is combined, in INT32 mode element by element modulo 2^32: at once in
the saddle store, and at a core, where it enters the input buffer, with a read of its region row and a write two a-cycles later; one of a
queue that forms waits, one of a queue that is not open is refused; when a round is full and delivered, ROUND advances and its
contributions are free; a completion frees the handle. -/
def Obligations.RoundsCombine : Prop :=
  (∀ (p : Pkt) (s : State) (i : Nat) (x : Contributor), p.kind = .cqRow → Receives p s →
    let t := s.received p
    let q := queueOf p
    let y := t.queue q
    let row := fld p.arg 57 48
    let n := min 256 (y.count * 4 - 256 * row)
    let a := regionBase (queueLocal q) y.word + 256 * row
    let summed (u : State) : Prop := u.regionRead q a n
      = if y.rowsIn.contains (a / 256) = true then addRow 0 (t.regionRead q a n) (p.body.take n) else p.body.take n
    let off : Bool := match q with
      | .local c _ => t.fusedOff c
      | .saddle _ => false
    let fence : Bool := t.fencing (match q with
      | .local c _ => .core c
      | .saddle _ => .port)
    off = false → fence = false → y.inc = p.dstInc → y.early.length + y.input.length < 64 →
    (y.st = .active → y.contribs.find? (fun c => c.1 == fld p.arg 63 58) = some (i, x) →
      exec (.contributionRowArrival p) s = .next (combineRow t q i x.cfmt p)
        ∧ (y.mode = 0 → p.body.length = 256 → 256 * row < 4 * y.count →
            (queueLocal q = false → summed (combineRow t q i x.cfmt p))
            ∧ (∀ c k, q = .local c k → s.calm c → (s.core c).cm.inUse = [] → summed ((combineRow t q i x.cfmt p).pass c 3))))
    ∧ (y.st = .forming → exec (.contributionRowArrival p) s
        = .next (t.modQ q fun x => { x with early := x.early ++ [p] }))
    ∧ (y.st = .closed ∨ y.st = .broken → bit p.arg 47 = true → exec (.contributionRowArrival p) s
        = .next (answerContrib (t.modQ q fun x => { x with drop := if x.drop = 0x1FFFF then x.drop else x.drop + 1 }) q p 3 0)))
  ∧ (∀ (q : QueueRef) (s : State), s.works →
    let x := s.queue q
    let next : List (Nat × Contributor) := x.contribs.map fun c => (c.1, { c.2 with landed := 0, complete := false, req := none })
    let closed (u : State) : Prop := (u.queue q).round = x.round + 1 ∧ (u.queue q).rowsIn = [] ∧ (u.queue q).contribs = next
    (¬(x.st = .active ∧ x.full = true) → exec (.roundComplete q) s = .next s)
    ∧ (x.st = .active → x.full = true → x.deliver = none → (∀ r ∈ x.readers, r.2.gone = true) →
      (queueLocal q = false → ∃ t, exec (.roundComplete q) s = .next t ∧ closed t)
      ∧ (∀ c k, q = .local c k → s.calm c → (s.core c).cm.inUse = [] → ∃ t, exec (.roundComplete q) s = .next t ∧ closed (t.pass c 1)))
    ∧ (∀ (r : Reader), queueLocal q = false → x.st = .active → x.full = true → x.deliver = none → x.readerCount = 1 →
        x.readers = [(0, r)] → r.gone = false → x.count ≤ x.perRecord →
        let len := x.count * if x.mode = 1 then 16 else 4
        r.ep.mayIssue len = true → ∃ t ep u, exec (.roundComplete q) s = .next t ∧ closed t
          ∧ s.sendRecord (queuePeer q r.ep.inc) r.ep 0 len x.round.toNat 0 (resultBytes s q 0 x.count) = (ep, u)
          ∧ (t.queue q).readers = [(0, { r with ep })] ∧ u.net <+: t.net))
  ∧ (∀ (p : Pkt) (s : State), p.kind = .resp → fld p.word 5 0 = 3 → Receives p s →
    let t := s.received p
    let c := p.dstUnit
    let h := vget (t.core c).cq.handles p.dstEp.toNat
    h.busy = true → (t.core c).inc = p.dstInc → fld p.arg 63 60 ≤ 1 →
    exec (.contributionComplete p) s = .next (t.modCq c fun q => { q with
      handles := vmod q.handles p.dstEp.toNat fun h => { h with busy := false, round := h.round + 1 } }))

/-- R136, R248, R249, R250, R251, R253: an arrival joins the round or faults its core; a release empties the round, advances ROUND and frees the
cores that wait; a round that expires faults the members that wait. A peer's frame counts in its round or in the next; CQ_TG_CTRL.RESET
empties an expired tollgate; CQ_TG_CFG takes a write, of which only HOLD may change while the tollgate gathers. -/
def Obligations.TollgatesGatherAndRelease : Prop :=
  (∀ (c : CoreId) (tg : BitVec 8) (bundle : BitVec 13) (s : State), s.cu.failstop = false →
     let g := vget s.tgs tg.toNat
     ((s.core c).sq.tgFly.find? (fun x => x.1 == tg) = some (tg, bundle) →
       let t := s.modSq c fun q => { q with tgFly := q.tgFly.erase (tg, bundle) }
       let u := t.modTg tg.toNat fun g => { g with st := .gathering, arrived := g.arrived ||| 1#256 <<< c.toNat }
       exec (.tollgateArrival c tg) s = .next (
         if g.en = false ∨ g.member c = false then tgRaise t c tg 0x060B bundle
         else if g.st = .expired then tgRaise t c tg 0x060D bundle
         else if bit g.arrived c.toNat then tgRaise t c tg 0x060C bundle
         else if (u.tg tg.toNat).allIn then sendArrived u tg else u))
     ∧ (g.mayRelease = true → s.ck.hold = none → (∀ d, g.member d = true → s.still d = true) →
       (s.isLatch tg.toNat = true → latchReady s (releasedWgen s g) = true) →
       ∃ t, exec (.tollgateRelease tg) s = .next t
         ∧ vget t.tgs tg.toNat = { g with
             st := if g.nextIn = 0 then .idle else .gathering
             round := g.round + 1, arrived := 0, peersIn := g.nextIn, frameWgen := g.nextWgen, nextIn := 0, admOk := false
             releaseNs := BitVec.ofNat 32 s.ck.ns.toNat }
         ∧ ∀ d b, g.member d = true → (s.core d).sq.release = some (tg, b) → (t.core d).sq.release = none)
     ∧ (g.mayRelease = true → s.ck.hold = none → s.isLatch tg.toNat = true → latchReady s (releasedWgen s g) = false →
       ∃ t, exec (.tollgateRelease tg) s = .next t ∧ (vget t.tgs tg.toNat).round = g.round
         ∧ (vget t.tgs tg.toNat).hold = true ∧ t.cores = s.cores)
     ∧ (g.st = .gathering → g.waits = true → ∃ t, exec (.tollgateExpiry tg) s = .next t
         ∧ (vget t.tgs tg.toNat).st = .expired
         ∧ (∀ b, g.member c = true → bit g.arrived c.toNat = true → (s.core c).sq.release = some (tg, b) → (s.core c).sq.st = .run →
             (t.core c).sq.st = .fault)
         ∧ (g.member c = false → t.core c = s.core c)))
  ∧ ((∀ (p : Pkt) (s : State) (j : Nat), p.kind = .tgArrived → Receives p s →
     let t := s.received p
     let n := p.dstEp.toNat
     let g := t.tg n
     let wgen := BitVec.ofNat 16 (fld p.arg 47 32)
     g.peerIndex p = some j → g.en = true → g.st ≠ .expired →
     (fld p.arg 63 48 = g.round.toNat → bit g.peersIn j = false → exec (.tgArrivedFrame p) s
       = .next (t.modTg n fun g => { g with st := .gathering, peersIn := g.peersIn ||| 1#8 <<< j, frameWgen := wgen }))
     ∧ (fld p.arg 63 48 = g.round.toNat → bit g.peersIn j = true → exec (.tgArrivedFrame p) s = .next t)
     ∧ (fld p.arg 63 48 = (g.round + 1).toNat → exec (.tgArrivedFrame p) s
       = .next (t.modTg n fun g => { g with nextIn := g.nextIn ||| 1#8 <<< j, nextWgen := wgen })))
   ∧ ∀ (tg : BitVec 8) (v : Word) (s : State), s.cu.failstop = false →
     let g := vget s.tgs tg.toNat
     let x := v &&& 0xFFFFFF0000000000
     let done (t : State) (off : Nat) (r : Status) : Host.Outcome State Machine.Fault Machine.Refusal :=
       .next (t.emit (.mgmt (0x0401000000 + 128 * tg.toNat + off) true r 0))
     (g.st = .expired → exec (.cqTgCtrlReset tg) s
       = done (s.modTg tg.toNat fun g => { g with st := .idle, arrived := 0, peersIn := 0, nextIn := 0 }) 0x50 .ok)
     ∧ (g.st ≠ .expired → exec (.cqTgCtrlReset tg) s = done s 0x50 (.refused .state))
     ∧ (8 < fld x 59 56 → exec (.cqTgCfgWrite tg v) s = done s 0 (.refused .range))
     ∧ (fld x 59 56 ≤ 8 → g.st = .gathering → setFld x 61 61 0 ≠ setFld g.cfg 61 61 0 → exec (.cqTgCfgWrite tg v) s
         = done s 0 (.refused .busy))
     ∧ (fld x 59 56 ≤ 8 → g.st ≠ .gathering ∨ setFld x 61 61 0 = setFld g.cfg 61 61 0 → exec (.cqTgCfgWrite tg v) s
         = done (s.modTg tg.toNat fun g => { g with cfg := x }) 0 .ok))

/-- R321, R331, R332, R346, R404: TRAIN starts every port, a trained port with six lanes or more sends its identity, an identity
of the switch is kept, and CHECK raises the ports whose cables are as expected, with both far cables swapped only where that is
accepted. -/
def Obligations.PortsTrainAndCheck : Prop :=
  ∀ (s : State), s.cu.failstop = false →
    let answer (t : State) (r : Status) : Host.Outcome State Machine.Fault Machine.Refusal :=
      .next (t.emit (.mgmt 0x0300000008 true r 0))
    let near : Prop := ∀ n, n < 6 → sees s n n = true
    let ready : Prop := s.fi.checkRun = false ∧ ∀ n, n < 8 → (vget s.fi.ports n).st = .ident
    ((∀ n, n < 8 → (vget s.fi.ports n).st = .off) → exec .fiCtrlTrain s
      = answer { s with fi := { s.fi with ports := s.fi.ports.map fun p =>
          { p with st := .training, portInc := p.portInc + 1, laneMap := 0, dropMap := none, trainFault := false, deskew := [], rxBlock := 0,
                   txBlock := 0, txLanes := [] } } } .ok)
    ∧ ((∃ n, n < 8 ∧ (vget s.fi.ports n).st ≠ .off) → exec .fiCtrlTrain s = answer s (.refused .state))
    ∧ (∀ (p : BitVec 3) (locked : BitVec 12), (vget s.fi.ports p.toNat).st = .training →
        (6 ≤ popcount locked 12 → ∃ f, exec (.portIdentTimer p locked) s
          = .next ((s.modPort p.toNat fun x => { x with st := .ident, laneMap := locked }).emit (.link p.toNat 1 f)))
        ∧ (popcount locked 12 < 6 → exec (.portIdentTimer p locked) s = .next s))
    ∧ (∀ (p : BitVec 3), (vget s.fi.ports p.toNat).st = .training ∨ (vget s.fi.ports p.toNat).st = .ident →
        ∃ t, exec (.portTrainTimeout p) s = .next t ∧ (vget t.fi.ports p.toNat).trainFault = true ∧ t.ms.lastFault = 0x0806
          ∧ t.cu.failN = true ∧ (s.fi.fault = 0 → fld t.fi.fault 63 48 = 0x0806 ∧ fld t.fi.fault 47 45 = p.toNat))
    ∧ (∀ (p : BitVec 3) (f : IdentFlit), (vget s.fi.ports p.toNat).st.linked = true → f.role = 1 →
        exec (.ident p f) s = .next (s.modPort p.toNat fun x => { x with
          seen := fw 63 56 f.plane.toNat ||| fw 55 40 f.swport.toNat ||| fw 39 24 f.chip.toNat ||| 1 }))
    ∧ (ready → near → sees s 6 6 = true → sees s 7 7 = true → ∃ t, exec .fiCtrlCheck s = answer t .ok
        ∧ (∀ n, n < 8 → (vget t.fi.ports n).st = .up ∧ (vget t.fi.ports n).cable = 1)
        ∧ t.fi.chipValid = true ∧ t.ms.phase = (if s.ms.phase = 7 then 8 else s.ms.phase))
    ∧ (ready → near → sees s 6 6 = false → sees s 7 7 = false → sees s 6 7 = true → sees s 7 6 = true → s.fi.acceptSwap = true →
        ∃ t, exec .fiCtrlCheck s = answer t .ok ∧ (∀ n, n < 8 → (vget t.fi.ports n).st = .up)
          ∧ (vget t.fi.ports 6).cable = 2 ∧ bit t.fi.portMap 0 = true ∧ t.fi.chipValid = true)
    ∧ (ready → near → sees s 6 6 = false → sees s 7 7 = false → sees s 6 7 = true → sees s 7 6 = true → s.fi.acceptSwap = false →
        ∃ t, exec .fiCtrlCheck s = answer t .ok ∧ t.fi.chipValid = false ∧ t.ms.lastFault = 0x0807)
    ∧ (s.fi.checkRun = true → exec .fiCtrlCheck s = answer s (.refused .state))

/-- R317 to R319, R326: a block whose lane is not in turn waits for those before it; of those in turn, one that is not good asks for a
resend, one that comes next in order is accepted, and another asks for a resend; the sixteenth resend of a block fail-stops the
package. -/
def Obligations.LinkBlocksAreTaken : Prop :=
  ∀ (p : BitVec 3) (b : UzlBlock) (s : State), s.cu.failstop = false →
    let x := vget s.fi.ports p.toNat
    x.st.linked = true → x.deskew = [] → bit x.laneMap b.lane.toNat = true →
    (∀ l, x.laneOf x.rxBlock = some l → l ≠ b.lane.toNat →
      exec (.uzlBlockReceive p b) s = .next (s.modPort p.toNat fun x => { x with deskew := [b] }))
    ∧ (x.laneOf x.rxBlock = some b.lane.toNat →
      (b.good = false → exec (.uzlBlockReceive p b) s
        = .next (s.modPort p.toNat fun x => { x with nak := true, rxBlock := x.rxBlock + 1 }))
      ∧ (b.good = true → b.idle = false → b.ackv = false → b.nak = false → (∀ r ∈ x.replay, r.2 < 16) →
        ∃ t, exec (.uzlBlockReceive p b) s = .next t
          ∧ (vget t.fi.ports p.toNat).xoffTx = b.xoff ∧ (vget t.fi.ports p.toNat).rxBlock = x.rxBlock + 1
          ∧ (x.rxNext = b.bseq → (vget t.fi.ports p.toNat).rxNext = b.bseq + 1 ∧ (vget t.fi.ports p.toNat).nak = false
              ∧ (vget t.fi.ports p.toNat).rxPktNow = x.rxPktNow + b.heads)
          ∧ (x.rxNext ≠ b.bseq → (vget t.fi.ports p.toNat).rxNext = x.rxNext ∧ (vget t.fi.ports p.toNat).nak = true
              ∧ (vget t.fi.ports p.toNat).rxPktNow = x.rxPktNow)
          ∧ t.cores = s.cores)
      ∧ (b.good = true → b.ackv = false → b.nak = true → (∃ r ∈ x.replay, 15 ≤ r.2) → bit (s.cu.failRec[0]) 0 = false →
        ∃ t, exec (.uzlBlockReceive p b) s = .next t ∧ t.cu.failstop = true ∧ fld (t.cu.failRec[0]) 63 48 = 0x0802))

/-- R322 to R324, R337, R338, R345, R381: a bad lane's removal is proposed, the peer's proposal is taken and acknowledged, an acknowledged
removal takes place; a port with fewer than six lanes left, without an answer in time or without block lock is lost, and the package fail-
stops. COPY and FLIP are refused while the idle bank is busy; a finished COPY leaves both banks equal; a bank that has not drained in time
fail-stops the package; a window moves its counts into the port registers; a message that the fabric does not answer completes with
PEER_RESET. -/
def Obligations.LanesRoutingAndTelemetry : Prop :=
  (∀ (p : BitVec 3) (lane : BitVec 4) (map : BitVec 12) (at_ : BitVec 16) (good bad : Nat) (s : State), s.cu.failstop = false →
     let x := vget s.fi.ports p.toNat
     let stops (i : Instr) : Prop := ∃ t, exec i s = .next t ∧ (vget t.fi.ports p.toNat).st = .lost ∧ t.cu.failstop = true
       ∧ (bit (s.cu.failRec[0]) 0 = false → fld (t.cu.failRec[0]) 63 48 = 0x0801)
     x.st.linked = true →
     (x.dropMap = none → bit x.laneMap lane.toNat = true →
       let new := x.laneMap &&& ~~~(1#12 <<< lane.toNat)
       let removes (i : Instr) : Prop :=
         if popcount new 12 < 6 then stops i
         else ∃ f, exec i s = .next ((s.modPort p.toNat fun x => { x with dropMap := some new }).emit (.link p.toNat 2 f))
       removes (.laneLockLoss p lane)
       ∧ (fld s.fi.laneCfg 63 32 < good ∨ fld s.fi.laneCfg 31 24 ≤ bad → removes (.laneWindowEnd p lane good bad))
       ∧ (good ≤ fld s.fi.laneCfg 63 32 → bad < fld s.fi.laneCfg 31 24 → exec (.laneWindowEnd p lane good bad) s = .next s))
     ∧ (let new := x.laneMap &&& map &&& x.dropMap.getD 0xFFF
        if popcount new 12 < 6 then stops (.laneDrop p map at_)
        else ∃ f, exec (.laneDrop p map at_) s = .next ((s.modPort p.toNat fun x => x.useMap new).emit (.link p.toNat 3 f)))
     ∧ (∀ m, x.dropMap = some m →
         stops (.laneAckTimeout p)
         ∧ (let new := x.laneMap &&& m &&& map
            if popcount new 12 < 6 then stops (.laneAck p map at_)
            else ∃ t, exec (.laneAck p map at_) s = .next t ∧ (vget t.fi.ports p.toNat).laneMap = new
              ∧ (vget t.fi.ports p.toNat).dropMap = none))
     ∧ stops (.blockLockLoss p))
  ∧ (∀ (s : State), s.cu.failstop = false →
     let answer (t : State) (r : Status) : Host.Outcome State Machine.Fault Machine.Refusal :=
       .next (t.emit (.mgmt 0x0300000048 true r 0))
     (s.fi.bankBusy (!s.fi.epoch) = false →
       exec .fiRtCopy s = answer { s with fi := { s.fi with copying := true } } .ok
       ∧ exec .fiRtFlip s = answer { s with fi := { s.fi with left := some s.fi.epoch, epoch := !s.fi.epoch } } .ok)
     ∧ (s.fi.bankBusy (!s.fi.epoch) = true →
       exec .fiRtCopy s = answer s (.refused .busy) ∧ exec .fiRtFlip s = answer s (.refused .busy))
     ∧ (s.fi.copying = true → s.cu.remap = none → ∃ t, exec .rtCopyDone s = .next t ∧ t.fi.copying = false
         ∧ t.fi.epoch = s.fi.epoch ∧ (∀ b, t.bank b = s.bank s.fi.epoch))
     ∧ (∀ b, s.fi.left = some b →
         (s.fi.inFlight b = 0 → exec .rtDrainTimeout s = .next s)
         ∧ (s.fi.inFlight b ≠ 0 → bit (s.cu.failRec[0]) 0 = false → ∃ t, exec .rtDrainTimeout s = .next t ∧ t.cu.failstop = true
             ∧ fld (t.cu.failRec[0]) 63 48 = 0x0804))
     ∧ (∃ t, exec .telemetryWindow s = .next t ∧ t.cores = s.cores ∧ ∀ n, n < 8 →
         let x := vget s.fi.ports n
         let y := vget t.fi.ports n
         y.txPkt = BitVec.ofNat 64 x.txPktNow ∧ y.txByte = BitVec.ofNat 64 x.txByteNow ∧ y.rxPkt = BitVec.ofNat 64 x.rxPktNow
           ∧ y.rxByte = BitVec.ofNat 64 x.rxByteNow ∧ y.txPktNow = 0 ∧ y.rxPktNow = 0 ∧ y.st = x.st ∧ y.egress = x.egress)
     ∧ (∀ (n : Nat) (p : Pkt), s.ck.hold = none → s.errs = [] → s.fi.awaited[n]? = some p → p.kind = .chRow → p.ssad = false →
         (vget (s.core p.srcUnit).cq.send p.srcEp.toNat).inc = p.srcInc → p.srcEp.toNat < 32 →
         ∃ t, exec (.fabricRequestTimeout n) s = .next t ∧ t.fi.awaited = s.fi.awaited.eraseIdx n
           ∧ (vget (t.core p.srcUnit).cq.send p.srcEp.toNat).st = .broken
           ∧ (vget (t.core p.srcUnit).cq.send p.srcEp.toNat).last = 3))

/-- R342, R343, R370, R435 to R438: the source sends SYNC to the other members and answers a DREQ with its stamp; the follower
stamps a SYNC, ends its holdover and offers the offset that the known path delay gives; a DRESP gives delay and offset; a correction
takes the offset; a read of MS_MSC_NS latches the fraction; HOSTOFS offers an offset where the package follows the host. -/
def Obligations.TimeIsExchanged : Prop :=
  (∀ s : State, s.cu.failstop = false →
    (bit s.fi.timeCfg 47 = true → ∃ t, exec .syncPeriod s = .next t ∧ t.fi.syncSeq = s.fi.syncSeq + 1 ∧ t.cores = s.cores ∧ t.ck = s.ck)
    ∧ (bit s.fi.timeCfg 47 = false → exec .syncPeriod s = .next s)
    ∧ (∀ o, s.fi.offset = some o → exec .timeCorrection s
        = .next { s with ck := s.ck.correct o (fld s.fi.timeCfg 31 16), fi := { s.fi with offset := none } })
    ∧ (s.fi.offset = none → exec .timeCorrection s = .next { s with ck := { s.ck with a := 0 } })
    ∧ (∃ t, exec .holdoverTimer s = .next t ∧ t.ck = { s.ck with servo := 2 } ∧ fld t.fi.timeStat 63 63 = 1
        ∧ fld t.fi.timeStat 62 0 = fld s.fi.timeStat 62 0)
    ∧ (∀ v : Word, exec (.msMscHostofsWrite v) s = .next (
        if bit s.fi.timeCfg 47 then (s.offer (v.toInt * 2 ^ 24)).emit (.mgmt 0x0000200030 true .ok 0)
        else s.emit (.mgmt 0x0000200030 true (.refused .state) 0))))
  ∧ (∀ s : State, exec .msMscNsRead s
      = .next ({ s with ck := { s.ck with fracLatch := s.ck.frac } }.emit (.mgmt 0x0000200018 false .ok s.ck.ns)))
  ∧ ∀ (p : Pkt) (s : State), p.kind = .time → Receives p s →
    let r := s.received p
    (fld p.arg 63 60 = 1 → fromSource s p = true →
      ∃ t, exec (.syncMsg p) s = .next t ∧ t.fi.sync = some { t1 := bodyTime p, t2 := s.ck.time, c1 := bodyCorr p }
        ∧ fld t.fi.timeStat 63 63 = 0 ∧ t.ck = s.ck
        ∧ ∀ d, s.fi.delay = some d → t.fi.offset = some ((s.ck.time : Int) - bodyTime p - bodyCorr p * 2 ^ 16 - d))
    ∧ (fld p.arg 63 60 = 1 → fromSource s p = false → exec (.syncMsg p) s = .next r)
    ∧ (fld p.arg 63 60 = 2 → exec (.dreq p) s = .next (r.send (timePkt p.srcSvc 3 s.ck.time (recFld p.body 12 8) (bodySeq p))))
    ∧ (∀ x seq t3, fld p.arg 63 60 = 3 → fromSource s p = true → s.fi.sync = some x → s.fi.dreq = some (seq, t3) → bodySeq p = seq →
        let forth : Int := (x.t2 : Int) - x.t1 - x.c1 * 2 ^ 16
        let back : Int := (bodyTime p : Int) - t3 - bodyCorr p * 2 ^ 16
        ∃ t, exec (.dresp p) s = .next t ∧ t.fi.delay = some ((forth + back) / 2) ∧ t.fi.dreq = none
          ∧ t.fi.offset = some (forth - (forth + back) / 2))

/-- R432, R433: a write of MS_CLK_STEP is refused in a hold, in REST and with M out of range, in this order; with M of the present
step it takes the increment, with another it begins a hold; the cores, in whatever state, keep what they hold. -/
def Obligations.ClockStepWrites : Prop :=
  ∀ (s : State) (v : Word), s.cu.failstop = false →
    let answer (t : State) (r : Status) : Host.Outcome State Machine.Fault Machine.Refusal := .next (t.emit (.mgmt 0x0000200000 true r 0))
    let m : BitVec 5 := BitVec.ofNat 5 (fld v 4 0)
    let inc : BitVec 40 := BitVec.ofNat 40 (fld v 47 8)
    (s.ck.hold ≠ none → exec (.msClkStepWrite v) s = answer s (.refused .busy))
    ∧ (s.ck.hold = none → s.ck.rest = true → exec (.msClkStepWrite v) s = answer s (.refused .state))
    ∧ (s.ck.hold = none → s.ck.rest = false → m.toNat < 10 ∨ 16 < m.toNat →
        exec (.msClkStepWrite v) s = answer s (.refused .range))
    ∧ (s.ck.hold = none → s.ck.rest = false → 10 ≤ m.toNat → m.toNat ≤ 16 → exec (.msClkStepWrite v) s = answer
        { s with ck := if m = s.ck.m then { s.ck with stepM := m, stepInc := inc, inc := inc }
          else { s.ck with stepM := m, stepInc := inc, hold := some (m, inc) } } .ok)

/-- R429 to R434, R439, R440, R442 to R444: a clock step's hold ends with the new step; REST and its wake; temperature and voltage samples; a lost reference, a
drop of lock, and a temperature or voltage beyond its bound fail-stop the package. -/
def Obligations.ClocksAndPower : Prop :=
  ∀ (s : State), s.cu.failstop = false →
    let answer (t : State) (a : Nat) (r : Status) : Host.Outcome State Machine.Fault Machine.Refusal := .next (t.emit (.mgmt a true r 0))
    let stops (i : Instr) (code : Nat) : Prop := bit (s.cu.failRec[0]) 0 = false →
      ∃ t, exec i s = .next t ∧ t.cu.failstop = true ∧ fld (t.cu.failRec[0]) 63 48 = code
    (∀ m inc, s.ck.hold = some (m, inc) →
        exec .clockStepHoldEnd s = .next { s with ck := { s.ck with m, inc, hold := none, changes := s.ck.changes + 1 } }
        ∧ stops .pllRelockTimeout 0x0B02
        ∧ exec .pllLockDrop s = .next { s with ck := { s.ck with lock := false } })
    ∧ (s.ck.hold = none → exec .pllRelockTimeout s = .next s ∧ stops .pllLockDrop 0x0B02)
    ∧ stops .refclkStall 0x0B02
    ∧ (∀ ticks : BitVec 16,
        (1000 ≤ ticks.toNat → ∃ t, exec (.refmonWindowEnd ticks) s = .next t ∧ t.ck.refmonLast = ticks
          ∧ (s.ck.refmonMin ≠ 0 → t.ck.refmonMin.toNat = min s.ck.refmonMin.toNat ticks.toNat) ∧ t.cores = s.cores)
        ∧ (ticks.toNat < 1000 → stops (.refmonWindowEnd ticks) 0x0B02))
    ∧ ((s.cores.toList.any fun k => k.sq.st == .run || k.sq.st == .resetting) = true →
        exec .msRestEnter s = answer s 0x0000200038 (.refused .state))
    ∧ ((s.cores.toList.any fun k => k.sq.st == .run || k.sq.st == .resetting) = false → s.ms.loading = none →
        s.ws.load.running = false → s.ck.hold = none → exec .msRestEnter s = answer { s with ck := { s.ck with rest := true } } 0x0000200038 .ok)
    ∧ (s.ck.rest = true → s.ck.waking = false →
        exec .msRestWake s = answer { s with ck := { s.ck with waking := true } } 0x0000200038 .ok)
    ∧ (s.ck.rest = false ∨ s.ck.waking = true → exec .msRestWake s = answer s 0x0000200038 (.refused .state))
    ∧ (s.ck.waking = true → exec .restWakeRestart s = .next { s with ck := { s.ck with rest := false, waking := false } })
    ∧ (∀ q0 q1 q2 q3 sad : BitVec 12,
        let hot (t : Nat) : Prop := t ≤ q0.toNat ∨ t ≤ q1.toNat ∨ t ≤ q2.toNat ∨ t ≤ q3.toNat ∨ t ≤ sad.toNat
        (¬hot 1320 → ∃ t, exec (.tempSample q0 q1 q2 q3 sad) s = .next t ∧ t.cores = s.cores
          ∧ t.ck.temp = (fw 59 48 sad.toNat ||| fw 47 36 q3.toNat ||| fw 35 24 q2.toNat ||| fw 23 12 q1.toNat ||| fw 11 0 q0.toNat)
          ∧ (hot (fld s.ck.therm 11 0) → t.ck.therm = setFld s.ck.therm 13 13 1)
          ∧ (¬hot (fld s.ck.therm 11 0) → t.ck.therm = s.ck.therm))
        ∧ (hot 1320 → stops (.tempSample q0 q1 q2 q3 sad) 0x0A0E))
    ∧ (∀ (q : BitVec 2) (mv : BitVec 16) (margin : BitVec 8),
        (0 ≤ margin.toInt → ∃ t, exec (.avsPeriod q mv margin) s = .next t ∧ t.cores = s.cores
          ∧ fld (vget t.ck.avs q.toNat) 63 48 = mv.toNat ∧ fld (vget t.ck.avs q.toNat) 15 8 = margin.toNat
          ∧ fld (vget t.ck.avs q.toNat) 47 32 = max (fld (vget s.ck.avs q.toNat) 47 32) mv.toNat)
        ∧ (margin.toInt < 0 → (Config.avsMax q.toNat).toNat ≤ mv.toNat → stops (.avsPeriod q mv margin) 0x0A0F))

/-- R383, R384: a beat goes to every watched peer; the end of a window counts an empty one and forgives a peer that was heard; the
third empty window, or a FAIL message, loses the peer; the loss of a member whose partner is this package makes it lead the
failover to its first spare. -/
def Obligations.PeersAreWatched : Prop :=
  (∀ s : State, s.cu.failstop = false →
    (s.cu.remap = none → exec .beatTimer s = .next (
      let t : State := { s with cu := { s.cu with beatSeq := s.cu.beatSeq + 1 } }
      (s.cu.watch.toList.filter fun w => w.valid).foldl (fun t w => t.send (cuMsg t w.svc 1 t.svc t.chip.toNat 0)) t))
    ∧ ((∀ i, i < 32 → let w := vget s.cu.watch i
          w.valid = true → w.lost = false → w.seen = false → w.missed < 2) →
        ∃ t, exec .heartbeatWindowEnd s = .next t ∧ t.cores = s.cores ∧ ∀ i, i < 32 →
          let w := vget s.cu.watch i
          let v := vget t.cu.watch i
          (w.valid = true → w.lost = false → w.seen = true → v = { w with seen := false, missed := 0 })
          ∧ (w.valid = true → w.lost = false → w.seen = false → v.missed = w.missed + 1 ∧ v.lost = false)
          ∧ (w.valid = false ∨ w.lost = true → v = w))
    ∧ (∀ i, i < 32 → s.cu.foPhase = 0 →
        let w := vget s.cu.watch i
        w.valid = true → w.lost = false → w.seen = false → w.missed = 2 → s.members.contains w.svc = false →
        (∀ j, j < 32 → j ≠ i → (vget s.cu.watch j).valid = false) →
        ∃ t, exec .heartbeatWindowEnd s = .next t ∧ (vget t.cu.watch i).lost = true ∧ (vget t.cu.watch i).missed = 3
          ∧ (vget t.cu.watch i).lossNs = BitVec.ofNat 32 w.lossAt.toNat ∧ t.cores = s.cores))
  ∧ ∀ (p : Pkt) (s : State), p.kind = .heartbeat → Receives p s →
    (cuTypeOf p = 1 → exec (.beat p) s = .next (s.heard p))
    ∧ (cuTypeOf p = 2 → watchOf s p.srcSvc = none →
        let lossAt := (wordOf (slice p.body 8 8)).toNat
        exec (.failMsg p) s = .next { s.heard p with cu := { (s.heard p).cu with
          losses := (p.srcSvc, lossAt) :: s.cu.losses.filter fun w => decide (s.ck.ns.toNat ≤ w.2 + 5000600000) } })
    ∧ (∀ i j, cuTypeOf p = 2 → watchOf s p.srcSvc = some i → (vget s.cu.watch i).lost = false →
        s.members.contains p.srcSvc = true → s.ws.load.running = false → s.cu.foPhase = 0 → s.mirrorOn = true →
        fld s.cu.mirrorCfg 59 44 = p.srcSvc.toNat → j < 4 → bit (vget s.cu.spare j) 63 = true →
        (∀ k, k < j → bit (vget s.cu.spare k) 63 = false) →
        ∃ t, exec (.failMsg p) s = .next t ∧ (vget t.cu.watch i).lost = true ∧ t.cu.lead = true ∧ t.cu.foPhase = 2
          ∧ t.cu.foSvc = p.srcSvc ∧ t.cu.spareIdx = j ∧ t.cu.foChip = BitVec.ofNat 16 (fld (vget s.cu.spare j) 15 0)
          ∧ ∀ c, (t.core c).sq.st = if (s.core c).sq.st = .run then .stopped else (s.core c).sq.st)

/-- R394 to R398: HOLD stops a member's cores; TAKEOVER begins the fence of a package without a program; TAKEN and REMAP rewrite the
routing entry of the failed member; a spare that does not answer is followed by the next, and without one the partition is lost;
reports are kept; RESTORED ends the wait for the spare; RESUME resets every core; the spare takes the restored page map. -/
def Obligations.FailoverRuns : Prop :=
  (∀ (p : Pkt) (s : State), p.kind = .heartbeat → Receives p s →
    let h := s.heard p
    let subject : BitVec 16 := BitVec.ofNat 16 (fld p.arg 43 28)
    (cuTypeOf p = 3 → ∃ t, exec (.holdMsg p) s = .next t ∧ t.cu.foPhase = 1 ∧ t.cu.foSvc = subject
        ∧ ∀ c, (t.core c).sq.st = if (s.core c).sq.st = .run then .stopped else (s.core c).sq.st)
    ∧ (cuTypeOf p = 5 → s.prog = none → s.cu.fences.contains .package = false → s.cu.isSpare = false →
        exec (.takeover p) s = .next { h with cu := { h.cu with assume_ := some p, fences := h.cu.fences ++ [.package] } })
    ∧ (cuTypeOf p = 5 → s.prog ≠ none ∨ s.cu.isSpare = true → exec (.takeover p) s = .next h)
    ∧ (cuTypeOf p = 6 → s.cu.lead = true → s.cu.foPhase = 2 →
        ∃ t e, exec (.taken p) s = .next t ∧ t.cu.foPhase = 3 ∧ t.cu.remap = some (s.cu.foSvc, e) ∧ t.cores = s.cores)
    ∧ (cuTypeOf p = 6 → s.cu.lead = false → exec (.taken p) s = .next h)
    ∧ (cuTypeOf p = 7 → ∃ t e, exec (.remap p) s = .next t ∧ t.cu.remap = some (subject, e)
        ∧ t.cu.foChip = BitVec.ofNat 16 (fld p.arg 27 12) ∧ t.cores = s.cores)
    ∧ (cuTypeOf p = 4 → s.cu.lead = true → s.cu.restored = false → ∃ t, exec (.reportMsg p) s = .next t ∧ t.cores = s.cores
        ∧ ∀ j, j < 4 → t.cu.reports.find? (fun r => r.svc == p.srcSvc && r.slot == 4 * fld p.arg 11 5 + j) = some {
            svc := p.srcSvc, slot := 4 * fld p.arg 11 5 + j
            pos := BitVec.ofNat 32 (recFld p.body (8 * j) 4), token := BitVec.ofNat 32 (recFld p.body (8 * j + 4) 4) })
    ∧ (cuTypeOf p = 4 → s.cu.lead = false → exec (.reportMsg p) s = .next h)
    ∧ (cuTypeOf p = 8 → s.cu.lead = true → s.cu.foPhase ≠ 3 → exec (.restored p) s = .next { h with cu := { h.cu with restored := true } })
    ∧ (cuTypeOf p = 8 → s.cu.lead = false → exec (.restored p) s = .next h)
    ∧ (cuTypeOf p = 9 → s.cu.recovering = false → ∃ t, exec (.resume p) s = .next t ∧ t.cu.recovering = true
        ∧ (∀ c, (t.core c).sq.st = .resetting) ∧ t.cu.resume = (List.range 4).map fun j => {
            svc := s.svc, slot := 4 * fld p.arg 11 5 + j
            pos := BitVec.ofNat 32 (recFld p.body (8 * j) 4), token := BitVec.ofNat 32 (recFld p.body (8 * j + 4) 4) }))
  ∧ ∀ s : State, s.cu.failstop = false →
    (s.cu.lead = true → s.cu.foPhase = 2 →
      (∀ j, s.cu.spareIdx < j → j < 4 → bit (vget s.cu.spare j) 63 = true →
          (∀ k, s.cu.spareIdx < k → k < j → bit (vget s.cu.spare k) 63 = false) →
        ∃ t, exec .takeoverTimeout s = .next t ∧ t.cu.foPhase = 2 ∧ t.cu.spareIdx = j
          ∧ t.cu.foChip = BitVec.ofNat 16 (fld (vget s.cu.spare j) 15 0) ∧ t.cores = s.cores)
      ∧ ((∀ k, s.cu.spareIdx < k → k < 4 → bit (vget s.cu.spare k) 63 = false) →
        ∃ t, exec .takeoverTimeout s = .next t ∧ t.cu.foPhase = 6))
    ∧ (s.cu.lead = false ∨ s.cu.foPhase ≠ 2 → exec .takeoverTimeout s = .next s)
    ∧ (s.cu.restoreTa = none → exec .spareRestoreComplete s = .next s)
    ∧ (∀ a, s.cu.restoreTa = some a → s.cu.isSpare = true → s.cu.foPhase = 3 →
        (s.cu.restored = false → s.prog = none → ∃ t, exec .spareRestoreComplete s = .next t ∧ t.cu.restored = true
          ∧ t.cu.restoreTa = some a ∧ t.cores = s.cores ∧ t.tier = s.tier ∧ t.pageMap = s.pageMap)
        ∧ (s.cu.restored = true → s.prog ≠ none → copiesActive s = true → ∃ t, exec .spareRestoreComplete s = .next t
          ∧ t.cu.restoreTa = none ∧ t.cores = s.cores ∧ t.tier = s.tier
          ∧ t.pageMap = Mem.write s.pageMap 0 (s.tierRead (a + 0x800000) 0x800000)))

/-- R266, R386, R387, R393: the tap sends the rows it took; a row that arrives asks for the write side of its column's port, as requester 9,
and is in tier memory when the port has served it; an acknowledgement commits every row up to the
oldest that asked for it, but during a resync; a resync ends with its copy. -/
def Obligations.MirrorCommits : Prop :=
  (∀ s : State, s.cu.failstop = false →
    (∃ t, exec .mirrorTapCopy s = .next t ∧ t.cu.tap = [] ∧ t.cu.sent = s.cu.sent ++ s.cu.tap
        ∧ fld t.cu.mirrorStat 63 32 = min (2 ^ 32 - 1) (fld s.cu.mirrorStat 63 32 + s.cu.tap.length) ∧ t.tier = s.tier)
    ∧ (bit s.cu.mirrorStat 15 = true → ∃ t, exec .mirrorResyncDone s = .next t ∧ bit t.cu.mirrorStat 15 = false
        ∧ t.cu.committed = s.cu.acked ∧ t.tier = s.tier ∧ t.cu.foPhase = if s.cu.foPhase = 5 then 0 else s.cu.foPhase)
    ∧ (bit s.cu.mirrorStat 15 = false → exec .mirrorResyncDone s = .next s))
  ∧ (∀ (p : Pkt) (s : State), p.kind = .mirror → Receives p s → s.cu.fences.contains .package = false →
    let ta := fld p.arg 63 27
    let col := ta / 2 ^ 29 % 256
    let e : PortEntry := {
      req := { requester := 9, ta := BitVec.ofNat 37 ta, beats := 1, data := p.body }, job := .mirror p, from_ := s.colClk col }
    (fld p.arg 25 23 < 5 → ta % 2 ^ 26 < 0x3000000 → ∃ t, exec (.mirrorRowArrival p) s = .next t
      ∧ t.cu.mirrorIn = s.cu.mirrorIn ++ [(p, false)] ∧ t.tier = s.tier ∧ t.cores = s.cores
      ∧ ((s.port col .write).queue = [] → (t.port col .write).queue = [{ e with owner := true }])
      ∧ ((s.port col .write).owned = true → (t.port col .write).queue = (s.port col .write).queue ++ [e]))
    ∧ (5 ≤ fld p.arg 25 23 → exec (.mirrorRowArrival p) s = .next ((s.received p).ingStat 47 32)))
  ∧ (∀ (p : Pkt) (col : BitVec 8) (e : PortEntry) (s : State), s.cu.failstop = false →
    let side := s.port col.toNat .write
    let clk := s.colClk col.toNat
    let f := taFlat e.req.ta.toNat
    side.queue.head? = some e → e.owner = true → e.job = .mirror p → s.cu.mirrorIn = [(p, false)] →
    bit s.cu.mirrorCfg 63 = false → (∀ a ∈ (s.core col).due, a.port ≠ .tierWrite) → e.req.beats ≤ e.kept + (clk - side.grantAt) →
    ∃ t, exec (.asyncTransferComplete col .write) s = .next t ∧ t.cu.mirrorIn = []
      ∧ Mem.read t.tier f e.req.data.length = e.req.data
      ∧ ∀ x, x < f ∨ f + e.req.data.length ≤ x → Mem.get t.tier x = Mem.get s.tier x)
  ∧ ∀ (p : Pkt) (s : State), p.kind = .resp → fld p.word 5 0 = 4 → Receives p s →
    (∀ r, fld p.arg 63 60 = 0 → s.cu.sent.find? (fun r => r.ackreq) = some r → ∃ t, exec (.mirrorAck p) s = .next t
      ∧ t.cu.sent = (s.cu.sent.filter fun x => decide (r.seq < x.seq)) ∧ t.cu.acked = r.seq
      ∧ t.cu.committed = (if bit s.cu.mirrorStat 15 = true then s.cu.committed else r.seq))
    ∧ (fld p.arg 63 60 ≠ 0 → exec (.mirrorAck p) s = .next (s.received p))

/-- R374, R375, R377: a trigger of R374 writes the fail-stop record, stops every core in FAULT and asserts FAIL_N; with a record held
it only advances LATER; a code that R374 does not list does nothing; the record is released by clearing VALID. -/
def Obligations.FailStopRecordsTrigger : Prop :=
  ∀ (g : Trigger) (s : State),
    let rec0 := s.cu.failRec[0]
    (stopCodes.contains g.code.toNat = true → s.cu.failstop = false → bit rec0 0 = false →
      ∃ t, exec (.failStop g) s = .next t ∧ t.cu.failstop = true ∧ t.cu.failN = true
        ∧ fld (t.cu.failRec[0]) 63 48 = g.code.toNat ∧ fld (t.cu.failRec[0]) 47 40 = g.unit.toNat
        ∧ bit (t.cu.failRec[0]) 0 = true ∧ t.cu.failRec[1] = s.ck.ns ∧ t.cu.failRec[2] = g.detail
        ∧ (∀ c, (t.core c).sq.st = .fault ∧ (t.core c).cm = (s.core c).cm) ∧ t.tier = s.tier)
    ∧ (stopCodes.contains g.code.toNat = true → s.cu.failstop = true → bit rec0 0 = true →
      ∃ t, exec (.failStop g) s = .next t ∧ t.cu.failRec[0] = rec0 ∧ t.cu.failRec[1] = s.cu.failRec[1]
        ∧ fld (t.cu.failRec[3]) 31 16 = min 0xFFFF (fld (s.cu.failRec[3]) 31 16 + 1) ∧ t.cores = s.cores)
    ∧ (stopCodes.contains g.code.toNat = false → exec (.failStop g) s = .next s)
    ∧ exec .failRecordRelease s = .next ({ s with cu := { s.cu with failRec := s.cu.failRec.set 0 (clrFld rec0 0 0) } }.emit
        (.mgmt 0x0100000008 true .ok 0))

/-- R301, R304, R311: the reader checks a manifest that has been fetched and arms, or ends the load with the reason; a member
arms and answers, or answers why not; a reason, a third mismatch of a chunk, a failed READ, or ABORT ends the load. -/
def Obligations.WeightLoadsArmOrFail : Prop :=
  let failed (t : State) (reason : Nat) : Prop := t.ws.load.phase = 7 ∧ t.ws.load.reason = BitVec.ofNat 8 reason
  (∀ (s : State) (f : FetchedManifest), s.cu.failstop = false → s.ws.load.reader = true → s.ws.load.phase = 1 →
    let l := s.ws.load
    (∃ t, exec (.wsManifestFetched none) s = .next t ∧ failed t 6)
    ∧ (512 ≤ f.header.length → 512 ≤ l.length →
      (∀ r, manifestReason s l.set.toNat f.header f.manifest (some l.length) = some r →
        ∃ t, exec (.wsManifestFetched (some f)) s = .next t ∧ failed t r)
      ∧ (manifestReason s l.set.toNat f.header f.manifest (some l.length) = none → l.direct = false → s.others ≠ [] →
        s.ws.gens.toList.any (fun g => g.st == 0) = true → s.ws.gens.toList.any (fun g => g.st != 0 && g.wgen == l.wgen) = false →
        ∃ t, exec (.wsManifestFetched (some f)) s = .next t ∧ t.ws.load.phase = 2 ∧ t.ws.load.armed = [s.svc]
          ∧ t.ws.load.manifest = f.manifest ∧ (t.ws.gens.toList.any fun g => g.st == 1 && g.wgen == l.wgen) = true)))
  ∧ (∀ (p : Pkt) (s : State), isCtrl p 1 = true → Receives p s → s.ws.load.running = true →
    let l := s.ws.load
    let wgen := BitVec.ofNat 16 (fld p.arg 55 40)
    let set := fld p.arg 39 36
    (l.reader = true ∨ l.phase ≠ 1 ∨ l.wgen ≠ wgen ∨ l.set.toNat ≠ set →
      exec (.arm p) s = .next ((s.received p).send (wsCtrl (s.received p) p.srcSvc 2 wgen set 0 5)))
    ∧ (let bytes := rowBytes l.mrows
       let h := slice bytes 0 512
       let m := slice bytes 512 (recFld h 16 4)
       let free : Prop := (s.ws.gens.toList.any fun g => g.st != 0 && g.wgen == wgen) = false
         ∧ (s.ws.gens.toList.any fun g => g.st == 0) = true
       l.reader = false → l.phase = 1 → l.wgen = wgen → l.set.toNat = set → (vget s.ws.sets set).mode ≠ 0 → wgen ≠ 0 → free →
       (manifestReason s set h m none = none → ∃ t, exec (.arm p) s = .next t ∧ t.ws.load.phase = 2 ∧ t.ws.load.manifest = m
          ∧ (t.ws.gens.toList.any fun g => g.st == 1 && g.wgen == wgen) = true)
       ∧ (∀ r, manifestReason s set h m none = some r → ∃ t, exec (.arm p) s = .next t ∧ failed t r)))
  ∧ (∀ (p : Pkt) (s : State), Receives p s → s.ws.load.reader = true → ofLoad s p = true →
    let l := s.ws.load
    (isCtrl p 2 = true → fld p.arg 15 8 ≠ 0 → ∃ t, exec (.armed p) s = .next t ∧ failed t (fld p.arg 15 8))
    ∧ (isCtrl p 2 = true → fld p.arg 15 8 = 0 → ((loadMembers s).all fun m => (p.srcSvc :: l.armed).contains m) = false →
      exec (.armed p) s = .next ((s.received p).modLoad fun l => { l with armed := p.srcSvc :: l.armed }))
    ∧ (isCtrl p 6 = true →
      let n := (l.nacks.filter (· == (p.srcSvc, fld p.arg 35 16))).length
      (n < 2 → exec (.chunkNack p) s = .next ((s.received p).modLoad fun l => { l with
        nacks := (p.srcSvc, fld p.arg 35 16) :: l.nacks, resends := l.resends ++ [(p.srcSvc, fld p.arg 35 16)] }))
      ∧ (2 ≤ n → ∃ t, exec (.chunkNack p) s = .next t ∧ failed t 7)))
  ∧ ∀ (p : Pkt) (s : State), isCtrl p 7 = true → Receives p s → s.ws.load.reader = false →
    (s.ws.load.phase ≠ 0 → s.ws.load.phase ≠ 7 → s.ws.load.wgen.toNat = fld p.arg 55 40 →
      ∃ t, exec (.abortLoad p) s = .next t ∧ failed t (fld p.arg 15 8)
        ∧ (vget t.ws.sets s.ws.load.set.toNat).last = BitVec.ofNat 8 (fld p.arg 15 8))
    ∧ (s.ws.load.wgen.toNat ≠ fld p.arg 55 40 → exec (.abortLoad p) s = .next (s.received p))

/-- R266, R301, R302, R304, R309: a row of a kept chunk asks, as requester 11, at the write side of the column where the member's placement has
it; a fetched chunk goes to its keepers, and a
READ that failed ends the load; GO makes the armed generation LIVE; DRAINED and VERIFIED are recorded, and the last VERIFIED completes
a DUAL load; the pin wait of an INPLACE load ends in GO; RETIRE frees a generation, or marks it while its step may still run. -/
def Obligations.WeightsMoveAndSwitch : Prop :=
  (∀ (p : Pkt) (s : State), p.kind = .wsChunk → Receives p s → fld p.arg 63 44 ≠ 0xFFFFF →
    let t := s.received p
    let l := s.ws.load
    let chunk := fld p.arg 63 44
    let row := fld p.arg 43 22
    (l.wgen = BitVec.ofNat 16 (fld p.arg 21 6) → l.set = BitVec.ofNat 4 (fld p.arg 5 2) →
      exec (.wsChunk p) s = .next (chunkRow t chunk row p.body)
      ∧ ∀ e k, l.running = true → copyLoading s = true → loadCopy s = false →
        l.chunks.find? (fun k => k.chunk == chunk && !k.done) = some k →
        (s.placementOf s.svc).filter (fun e => e.set == l.set && e.chunk.toNat == chunk
          && decide (4 * e.off.toNat ≤ row ∧ row < 4 * (e.off.toNat + e.len1.toNat + 1))) = [e] →
        let n := min 256 (wsChunkLen l.manifest chunk - 256 * row)
        let a := e.ta.toNat + 256 * row - 1024 * e.off.toNat
        -- another row of the chunk has still to arrive
        (∃ i, i ≠ row ∧ 256 * i < wsChunkLen l.manifest chunk ∧ ∀ r ∈ k.rows, r.1 ≠ i) →
        ∃ u, exec (.wsChunk p) s = .next u ∧ u.tm = (portJoin t (taColumn a) .write
            { requester := 11, ta := BitVec.ofNat 37 a, beats := 1, data := slice p.body 0 n } .chunk).tm
          ∧ u.tier = s.tier ∧ u.cores = s.cores ∧ u.ws.gens = s.ws.gens ∧ u.ws.sets = s.ws.sets)
    ∧ (l.wgen ≠ BitVec.ofNat 16 (fld p.arg 21 6) → exec (.wsChunk p) s = .next t))
  ∧ (∀ (s : State) (chunk : BitVec 20) (data : List Byte), s.cu.failstop = false →
    let l := s.ws.load
    let c := chunk.toNat
    l.reader = true → l.running = true → l.manifest ≠ [] → allArmed s = true → l.dual = true →
    (l.resends.any fun x => x.2 == c) = false → nextChunk s = some c →
    (∃ t, exec (.wsChunkFetched chunk none) s = .next t ∧ t.ws.load.phase = 7 ∧ t.ws.load.reason = 6)
    ∧ exec (.wsChunkFetched chunk (some data)) s = .next (loadCheck (deliverChunk
        (s.modLoad fun l => { l with next := c + 1, phase := if l.phase = 2 then 4 else l.phase })
        ((loadMembers s).filter fun m => keeps s m l.set.toNat c) c (slice data 0 (wsChunkLen l.manifest c)))))
  ∧ (∀ (p : Pkt) (s : State), isCtrl p 3 = true → Receives p s → s.ws.load.reader = false → ofLoad s p = true →
    s.ws.load.dual = true → (s.ws.gens.toList.any fun g => g.st == 1 && g.wgen == s.ws.load.wgen) = true →
    ∃ t, exec (.goMsg p) s = .next t ∧ t.ws.load.phase = 6
      ∧ (t.ws.gens.toList.any fun g => g.st == 2 && g.wgen == s.ws.load.wgen) = true)
  ∧ (∀ (p : Pkt) (s : State), Receives p s → s.ws.load.reader = true → ofLoad s p = true →
    let l := s.ws.load
    (isCtrl p 4 = true → exec (.drained p) s = .next ((s.received p).modLoad fun l => { l with drained := p.srcSvc :: l.drained }))
    ∧ (isCtrl p 5 = true → ((loadKeepers s).all fun m => (p.srcSvc :: l.verified).contains m) = false →
      exec (.verified p) s = .next ((s.received p).modLoad fun l => { l with verified := p.srcSvc :: l.verified }))
    ∧ (isCtrl p 5 = true → ((loadKeepers s).all fun m => (p.srcSvc :: l.verified).contains m) = true → l.dual = true →
      s.ws.own = [] → allArmed s = true → l.manifest ≠ [] → l.direct = true ∨ manifestChunks l.manifest ≤ l.next →
      ∃ t, exec (.verified p) s = .next t ∧ t.ws.load.phase = 6 ∧ t.ws.load.manifest = []))
  ∧ (∀ s : State, s.cu.failstop = false →
    let l := s.ws.load
    (l.reader = true → l.running = true → l.dual = false → l.went = false → allArmed s = true →
      ∃ t, exec .pinWaitExpiry s = .next t ∧ t.ws.load.went = true)
    ∧ (l.reader = false ∨ l.dual = true ∨ l.went = true → exec .pinWaitExpiry s = .next s))
  ∧ ∀ (p : Pkt) (s : State), isCtrl p 8 = true → Receives p s →
    let wgen := BitVec.ofNat 16 (fld p.arg 55 40)
    (s.ws.latches ≠ 0 → s.ws.latchWgen = wgen → ∃ t, exec (.retire p) s = .next t ∧ t.cores = s.cores
      ∧ t.ws.gens = s.ws.gens.map fun g => if g.st = 3 ∧ g.wgen = wgen then { g with retiring := true } else g)
    ∧ (s.ws.latches = 0 ∨ s.ws.latchWgen ≠ wgen → ∃ t, exec (.retire p) s = .next t ∧ t.cores = s.cores
      ∧ t.ws.gens = s.ws.gens.map fun g => if g.st = 3 ∧ g.wgen = wgen then {} else g)

/-- R290, R300, R311, R368, R406, R416 to R418, R419, R422, R423: a request under a session is dropped and counted when its tag is wrong or its
SEQ is old, answered again when its SEQ is the last one, and refused without a session that is proved. What each request under a session
does and answers. -/
def Obligations.KdmpSessionsAct : Prop :=
  (∀ (k : Kdmp) (pairs : List (BitVec 64 × Word)) (s : State), s.firmwareRuns = true →
     let t := s.takeDatagram
     (s.session k.session = none → exec (.regWrite k pairs) s = .next (t.respond 0x21 k.session k.seq (.refused .auth, [])))
     ∧ ∀ x, s.session k.session = some x →
       (x.key = none → exec (.regWrite k pairs) s = .next (t.respond 0x21 k.session k.seq (.refused .auth, [])))
       ∧ ∀ key, x.key = some key → k.auth = true →
         ((hmac384 key k.msg).take 16 ≠ k.tag →
           exec (.regWrite k pairs) s = .next { t with ms := { t.ms with authFail := s.ms.authFail + 1 } })
         ∧ ∀ kind seq st body, (hmac384 key k.msg).take 16 = k.tag → x.kept = some (kind, seq, st, body) →
           (seq = k.seq → exec (.regWrite k pairs) s = .next (t.respond kind k.session seq (st, body)))
           ∧ (k.seq.toNat < seq.toNat → exec (.regWrite k pairs) s = .next { t with ms := { t.ms with replay := s.ms.replay + 1 } }))
  ∧ (∀ (k : Kdmp) (s : State), Authentic k s →
     let t := s.takeDatagram
     let replies (i : Instr) (kind : Nat) (u : State) (a : Answer) : Prop := exec i s = .next (u.answered kind k a)
     (∀ (a : BitVec 64) (n : Nat),
       (1 ≤ n → n ≤ 64 → replies (.regRead k a n) 0x20 (readAll t ((List.range n).map fun i => a.toNat + 8 * i)).2
         (.ok, ((readAll t ((List.range n).map fun i => a.toNat + 8 * i)).1.map fun x => statusByte x.1)
           ++ ((readAll t ((List.range n).map fun i => a.toNat + 8 * i)).1.map fun x => wordBytes x.2).flatten))
       ∧ (n = 0 ∨ 64 < n → replies (.regRead k a n) 0x20 t (.refused .range, [])))
     ∧ (∀ (a : BitVec 64) (v : Word), replies (.regWrite k [(a, v)]) 0x21 (mgmtWrite a.toNat v t).2
         (.ok, [statusByte (mgmtWrite a.toNat v t).1]))
     ∧ (∀ (n : Nat) (addrs : List (BitVec 64)),
       (addrs.length ≤ 1024 → replies (.telemetryCfg k n addrs) 0x22 { t with ms := { t.ms with periodMs := n, addrs := addrs } } (.ok, []))
       ∧ (1024 < addrs.length → replies (.telemetryCfg k n addrs) 0x22 t (.refused .range, [])))
     ∧ (s.cu.failstop = true → replies (.progStart k) 0x31 t (.refused .failed, []))
     ∧ (s.cu.failstop = false →
       (∀ b : ProgBundle, s.ms.ownLoad = false →
         (loadBusy s = true → replies (.progLoad k b) 0x30 t (.refused .busy, []))
         ∧ (loadBusy s = false → programReason s b (recFld k.msg 48 8) = none → ∃ u, replies (.progLoad k b) 0x30 u (.ok, [])
             ∧ u.ms.loading = some b ∧ fld u.ms.load 63 61 = 1 ∧ u.cores = s.cores)
         ∧ (∀ r, loadBusy s = false → programReason s b (recFld k.msg 48 8) = some r → ∃ u, replies (.progLoad k b) 0x30 u (.ok, [])
             ∧ u.ms.loading = none ∧ fld u.ms.load 63 61 = 3 ∧ ∀ c, (u.core c).sq.st = .idle))
       ∧ ((∀ c, s.fusedOff c = false → (s.core c).sq.st = .ready ∨ (s.core c).sq.st = .done) →
           ∃ u, replies (.progStart k) 0x31 u (.ok, []) ∧ ((∀ c, s.still c = true) → ∀ c, s.fusedOff c = false →
             (u.core c).sq.st = .run ∧ (u.core c).sq.pc = (s.core c).sq.startPc ∧ (u.core c).sq.cycle = 0))
       ∧ (∀ body : List Byte, let b := WsLoadBody.ofBytes body
          b.set.toNat < 16 → (vget s.ws.sets b.set.toNat).mode ≠ 0 → s.ws.load.running = false →
           (s.ws.gens.toList.any fun g => g.st == 0) = true → b.wgen ≠ 0 →
           (s.ws.gens.toList.any fun g => g.st != 0 && g.wgen == b.wgen) = false →
           ∃ u, replies (.wsLoad k body) 0x32 u (.ok, []) ∧ u.ws.load.phase = 1 ∧ u.ws.load.wgen = b.wgen ∧ u.ws.load.reader = true
             ∧ u.ws.load.set.toNat = b.set.toNat ∧ u.ws.load.raddr = b.raddr ∧ u.ws.gens = s.ws.gens)
       ∧ (∀ body : List Byte, 16 ≤ (WsLoadBody.ofBytes body).set.toNat → replies (.wsLoad k body) 0x32 t (.refused .set, []))
       ∧ (s.ws.load.reader = true → s.ws.load.running = true → ∃ u, replies (.wsAbort k s.ws.load.wgen) 0x33 u (.ok, [])
           ∧ u.ws.load.phase = 7 ∧ u.ws.load.reason = 9)
       ∧ (∀ wgen, s.ws.load.reader = false → replies (.wsAbort k wgen) 0x33 t (.refused .state, []))
       ∧ (∀ qpn : BitVec 24, replies (.qpReset k qpn) 0x34 (t.modQp (qpn.toNat % 1024) fun _ => {}) (.ok, []))
       ∧ (s.fsvc.held = true → replies (.partitionReload k) 0x35 { t with fsvc := { t.fsvc with reload := true } } (.ok, []))
       ∧ (s.fsvc.held = false → replies (.partitionReload k) 0x35 t (.refused .state, [])
           ∧ replies (.partitionRelease k) 0x35 t (.refused .state, []))
       ∧ (s.fsvc.held = true → ∃ u, replies (.partitionRelease k) 0x35 u (.ok, []) ∧ u.fsvc.held = false ∧ u.cores = s.cores
           ∧ ∀ i, i < 512 → (vget u.hp.slots i).st = .free)
       ∧ (s.ms.warm ≠ none → replies (.resetWarm k) 0x36 t (.refused .busy, []) ∧ replies (.resetCold k) 0x36 t (.refused .busy, []))
       ∧ (s.ms.warm = none → replies (.resetWarm k) 0x36 (beginWarm 4 t) (.ok, []) ∧ replies (.resetCold k) 0x36 (coldReset 2 t) (.ok, []))))

/-- R404, R405, R410, R412, R414, R415: each phase of the boot ends as the table of R404 has it; a record or a self-test that fails
stops it, and so does a phase beyond its bound; a download belongs to one source, and its verified image starts the Fabric phase. -/
def Obligations.BootRuns : Prop :=
  ∀ (s : State),
    let stopped (t : State) (code : Nat) : Prop := t.ms.lastFault = BitVec.ofNat 16 code ∧ t.cu.failN = true ∧ t.ms.phase = s.ms.phase
      ∧ (s.ms.fault = 0 → fld t.ms.fault 63 48 = code % 2 ^ 16)
    (s.inPhase 1 = true → exec .rootPllLock s = .next { s with ms := { s.ms with phase := 3 }, ck := { s.ck with lock := true } })
    ∧ (∀ r : List Byte, s.inPhase 3 = true →
        (∀ code, recordFault s.ms.owner r = some code → ∃ t, exec (.configReadComplete r) s = .next t ∧ stopped t code)
        ∧ (recordFault s.ms.owner r = none → exec (.configReadComplete r) s = .next { s with ms := { s.ms with
            record := r, phase := 4, owner := if s.ms.owner = [] then sha384 (keyBytes (keyAt r 16)) else s.ms.owner } }))
    ∧ (s.inPhase 4 = true →
        (∃ t, exec (.selfTestComplete none) s = .next t ∧ t.ms.phase = 5 ∧ t.tier = [] ∧ t.pageMap = [] ∧ t.sqStore = [] ∧ t.errs = []
          ∧ ∀ c, (t.core c).cm.mem = [] ∧ (t.core c).sq.imem = [] ∧ (t.core c).me.acc = [] ∧ (t.core c).ve.vob = [])
        ∧ (∀ b, bit (s.cu.failRec[0]) 0 = false → ∃ t, exec (.selfTestComplete (some b)) s = .next t ∧ t.cu.failstop = true
          ∧ fld (t.cu.failRec[0]) 63 48 = 0x0A04 ∧ fld (t.cu.failRec[0]) 39 32 = b.place.toNat ∧ t.cu.failRec[2] = b.detail))
    ∧ (s.ms.lastFault = 0 → s.cu.failstop = false → s.ms.phase.toNat ∈ [1, 2, 3, 4, 5, 7, 8] →
        ∃ t, exec .bootPhaseTimeout s = .next t ∧ stopped t 0x0A0D)
    ∧ (s.ms.phase.toNat ∉ [1, 2, 3, 4, 5, 7, 8] → exec .bootPhaseTimeout s = .next s)
    ∧ (s.inPhase 6 = true → (s.ms.download = none → ∃ body, exec .hello s = .next (s.report 0x01 body))
        ∧ (s.ms.download ≠ none → exec .hello s = .next s))
    ∧ (∀ (src : BitVec 128) (header code : List Byte) (off : Nat),
        let t := s.takeDatagram
        let put (d : Option (BitVec 128 × List Byte × List (Nat × List Byte))) : State := { t with ms := { t.ms with download := d } }
        (s.ms.phase ≠ 6 → exec (.fwBegin src header) s = .next (t.respond 0x02 0 0 (.refused .type, []))
          ∧ exec (.fwData src off code) s = .next (t.respond 0x03 0 0 (.refused .type, []))
          ∧ exec (.fwEnd src) s = .next (t.respond 0x04 0 0 (.refused .type, [])))
        ∧ (s.ms.phase = 6 → s.ms.download = none →
          exec (.fwBegin src header) s = .next ((put (some (src, header, []))).respond 0x02 0 0 (.ok, [])))
        ∧ (∀ other h pieces, s.ms.phase = 6 → s.ms.download = some (other, h, pieces) →
          (other = src → exec (.fwBegin src header) s = .next ((put (some (src, header, []))).respond 0x02 0 0 (.ok, [])))
          ∧ (other ≠ src → exec (.fwBegin src header) s = .next (t.respond 0x02 0 0 (.refused .busy, [])))
          ∧ (other = src → code.length ≤ 8192 →
            exec (.fwData src off code) s = .next ((put (some (src, h, pieces ++ [(off, code)]))).respond 0x03 0 0 (.ok, [])))
          ∧ (∀ fault, other = src → firmwareFault s.ms h pieces = some fault → ∃ (u : State) (r : Reason) (body : List Byte), exec (.fwEnd src) s
              = .next (u.respond 0x04 0 0 (.refused r, body)) ∧ u.ms.download = none ∧ u.ms.phase = 6 ∧ u.cu = s.cu)
          ∧ (other = src → firmwareFault s.ms h pieces = none → ∃ u : State, exec (.fwEnd src) s = .next (u.respond 0x04 0 0 (.ok, []))
              ∧ u.ms.phase = 7 ∧ u.ms.download = none ∧ u.ms.firmware = (h, assemble (recFld h 8 4) pieces)
              ∧ u.ms.svn = recFld h 12 4 ∧ u.svc = BitVec.ofNat 16 (tlvHalf s.ms.record 0x8008 0)
              ∧ u.ms.minSvn = if recFld h 20 4 % 2 = 1 then s.ms.minSvn ||| BitVec.ofNat 64 (2 ^ recFld h 12 4 - 1) else s.ms.minSvn)))
    ∧ exec .fwDownloadTimeout s = .next { s with ms := { s.ms with download := none } }

/-- R403, R416, R417, R420, R421, R424: a session is opened with a challenge, and keyed by a proof under a management key; identity
and attestation are answered; a debug certificate for this package unlocks it. -/
def Obligations.SessionsOpenAndAttest : Prop :=
  ∀ (s : State), s.firmwareRuns = true →
    let t := s.takeDatagram
    (∀ (key : Nat) (pub : Point),
      (onCurve pub = false → exec (.sessionOpen key pub) s
        = .next ({ t with ms := { t.ms with authFail := s.ms.authFail + 1 } }.respond 0x10 0 0 (.refused .auth, [])))
      ∧ (onCurve pub = true → ∃ (u : State) (x : Session) (body : List Byte), exec (.sessionOpen key pub) s = .next (u.respond 0x10 0 0 (.ok, body))
          ∧ u.ms.sessions = (if 8 ≤ s.ms.sessions.length then s.ms.sessions.tail else s.ms.sessions) ++ [x]
          ∧ x.num = s.ms.nextSession ∧ x.keyIdx = key ∧ x.hostPub = pub ∧ x.key = none
          ∧ body = keyBytes (publicOf x.devPriv) ++ x.challenge ++ leBytes 2 x.num.toNat))
    ∧ (∀ (n : BitVec 16) (pub : Point) (sg : Sig) (x : Session), s.session n = some x →
      (proofOk s.ms x pub sg = false → exec (.sessionProof n pub sg) s
        = .next ({ t with ms := { t.ms with authFail := s.ms.authFail + 1 } }.respond 0x11 0 0 (.refused .auth, [])))
      ∧ (proofOk s.ms x pub sg = true → exec (.sessionProof n pub sg) s = .next ((t.modSession n fun x => { x with
          key := some (hkdf384 x.challenge (leBytes 48 (ecdh x.devPriv x.hostPub)) [] 48) }).respond 0x11 0 0 (.ok, []))))
    ∧ (∀ n : BitVec 16, exec (.sessionTimeout n) s = .next { s with ms := { s.ms with
        sessions := s.ms.sessions.filter fun x => x.num != n } })
    ∧ exec .identity s = .next (t.respond 0x12 0 0 (.ok, Config.idCerts))
    ∧ (∀ nonce : List Byte, ∃ (u : State) (sg : Sig), exec (.attest nonce) s
        = .next (u.respond 0x13 0 0 (.ok, attestBody s nonce ++ leBytes 48 sg.r ++ leBytes 48 sg.s)) ∧ u.ms = t.ms)
    ∧ (∀ cert : List Byte,
      (certOk s.ms cert = true → exec (.debugUnlock cert) s
        = .next ({ t with ms := { t.ms with debug := true } }.respond 0x37 0 0 (.ok, [])))
      ∧ (certOk s.ms cert = false → exec (.debugUnlock cert) s = .next (t.respond 0x37 0 0 (.refused .auth, []))))

/-- R404, R406, R407, R411, R423, R428, R456: KICK, SEAL, READY and START_ALL; the watchdog; a cold reset keeps the fuses and draws a
new incarnation; a warm reset fences, and when its fence closes the package starts again with what R406 keeps. -/
def Obligations.ResetsAndControl : Prop :=
  ∀ (s : State),
    let answer (t : State) (r : Status) : Host.Outcome State Machine.Fault Machine.Refusal := .next (t.emit (.mgmt 0x10 true r 0))
    let fuses (t : State) : Prop := t.ms.serial = s.ms.serial ∧ t.ms.fwHash = s.ms.fwHash ∧ t.ms.owner = s.ms.owner
      ∧ t.ms.minSvn = s.ms.minSvn ∧ t.ms.dbgHash = s.ms.dbgHash ∧ t.ms.idSecret = s.ms.idSecret ∧ t.part = s.part
    let blank (t : State) : Prop := t.cores = Vector.replicate 256 {} ∧ t.tier = [] ∧ t.pageMap = [] ∧ t.prog = none ∧ t.sealed = false
      ∧ t.cu = {} ∧ t.fi = {} ∧ t.hp = {} ∧ t.ck = {} ∧ t.net = []
    (s.cu.failstop = false →
      exec .msCtrlKick s = answer { s with ms := { s.ms with kicked := true } } .ok
      ∧ (s.inPhase 7 = true ∨ s.inPhase 8 = true → exec .msCtrlSeal s = answer { s with ms := { s.ms with phase := 8 }, sealed := true } .ok)
      ∧ (s.inPhase 7 = false → s.inPhase 8 = false → exec .msCtrlSeal s = answer s (.refused .state))
      ∧ (s.sealed = true → s.ms.lastFault = 0 → ∃ body, exec .msCtrlReady s
          = answer ({ s with ms := { s.ms with phase := 9 } }.report 0x05 body) .ok)
      ∧ (s.sealed = false → exec .msCtrlReady s = answer s (.refused .state))
      ∧ (∃ t, exec .msCtrlStartAll s = answer t (if ∀ c, s.fusedOff c = false → (s.core c).sq.st = .ready ∨ (s.core c).sq.st = .done
            then .ok else .refused .state)
          ∧ ((∀ c, s.still c = true) → ∀ c, s.fusedOff c = false → (t.core c).sq.st = match (s.core c).sq.st with
            | .ready | .done => .run
            | st => st))
      ∧ (s.firmwareRuns = true → s.ms.kicked = true → exec .watchdogExpiry s = .next { s with ms := { s.ms with kicked := false } })
      ∧ (s.firmwareRuns = true → s.ms.kicked = false → bit (s.cu.failRec[0]) 0 = false → ∃ t, exec .watchdogExpiry s = .next t
          ∧ t.cu.failstop = true ∧ fld (t.cu.failRec[0]) 63 48 = 0x0A0C))
    ∧ (s.resetting = false →
      (∃ t, exec .msCtrlColdReset s = .next t ∧ blank t ∧ fuses t ∧ t.pinc ≠ 0 ∧ t.ms.phase = 1 ∧ t.slot = s.slot ∧ t.ms.cause = 3)
      ∧ (s.cu.failstop = false → ∃ t, exec .msCtrlWarmReset s = .next t ∧ t.cu.failN = false ∧ t.cu.fences.contains .package = true
          ∧ t.ms.warm = some 5 ∧ t.tier = s.tier ∧ ∀ c, (t.core c).sq.st = .resetting ∧ (t.core c).cm = (s.core c).cm)
      ∧ (s.cu.failstop = true → ∃ t, exec .msCtrlWarmReset s = .next t ∧ t.cu.failstop = false ∧ t.cu.failRec = s.cu.failRec
          ∧ t.ms.phase = 7 ∧ t.tier = s.tier ∧ t.pageMap = s.pageMap ∧ t.prog = none ∧ ∀ c, (t.core c).sq.st = .idle))
    ∧ (s.resetting = true → exec .msCtrlColdReset s = answer s (.refused .busy) ∧ exec .msCtrlWarmReset s = answer s (.refused .busy))
    ∧ (∀ cause, s.cu.failstop = false → s.cu.fences = [.package] → packageDrained s = true → s.ms.warm = some cause →
        ∃ t, exec (.fenceClose .package) s = .next t ∧ t.cu.fences = [] ∧ t.ms.warm = none ∧ t.ms.cause = cause ∧ t.prog = none
          ∧ t.ms.phase = (if allUp s = true then 8 else 7) ∧ t.pinc ≠ 0 ∧ (s.pinc ≠ 0xFFFF → t.pinc = s.pinc + 1)
          ∧ t.tier = s.tier ∧ t.pageMap = s.pageMap ∧ t.fi.rtA = s.fi.rtA ∧ t.fi.rtB = s.fi.rtB ∧ t.ck = s.ck
          ∧ t.tm.slotGen = s.tm.slotGen ∧ t.sealed = s.sealed ∧ t.svc = s.svc
          ∧ (∀ c, (t.core c).sq.st = .idle ∧ (t.core c).cm.mem = (s.core c).cm.mem ∧ (t.core c).cm.asyncMask = (s.core c).cm.asyncMask))
    ∧ (∃ t, exec .resetNAssert s = .next t ∧ blank t ∧ fuses t ∧ t.ms.resetN = false ∧ t.ms.phase = 0)
    ∧ (∀ strap, s.ms.resetN = false → ∃ t, exec (.resetNRelease strap) s = .next t ∧ t.slot = strap ∧ t.ms.resetN = true ∧ t.pinc ≠ 0
        ∧ t.ms.phase = 1 ∧ t.ms.nonce.length = 6 ∧ fuses t)
    ∧ (∃ t, exec .powerDown s = .next t ∧ blank t ∧ fuses t ∧ t.errs = [] ∧ t.ms.powered = false ∧ t.slot = 0)

/-- R422, R428: a program load completes only with chunks that match their digests: on a package whose cores have drained and which has no
open endpoint, handle or queue, the program is then the loaded one and every enabled core is READY; else every core is IDLE and MS_LOAD
tells the reason. Chunks that come while the cores' fences are still open change nothing. -/
def Obligations.ProgramLoadCompletes : Prop :=
  ∀ (s : State) (b : ProgBundle) (x : ProgSections), s.cu.failstop = false → s.ms.loading = some b → b.sections.lookup s.svc = some x →
    let fails (r : Option (List (List Byte))) (reason : Nat) : Prop := ∃ t, exec (.progLoadComplete r) s = .next t
      ∧ t.ms.loading = none ∧ fld t.ms.load 63 61 = 3 ∧ fld t.ms.load 60 53 = reason ∧ t.prog = s.prog ∧ t.tier = s.tier
      ∧ ∀ c, (t.core c).sq.st = .idle
    let charged := (s.hp.slots.toList.map fun n => n.blocks).foldl (· + ·) 0
    fails none 2
    ∧ (∀ chunks, s.ms.writing = true → exec (.progLoadComplete (some chunks)) s = .next s)
    ∧ (∀ chunks, s.ms.writing = false → chunks.map sha384 ≠ b.digests → fails (some chunks) 0x0A)
    ∧ (∀ chunks, s.ms.writing = false → chunks.map sha384 = b.digests → s.fsvc.reload = false → s.cu.fences = [] →
        (∀ c, coreDrained s c = true) → (∀ c e, e < 32 → (vget (s.core c).cq.send e).st ≠ .opened) →
        (∀ c h, h < 16 → (vget (s.core c).cq.handles h).valid = false) →
        (∀ q, (s.queue q).st = .closed ∧ (s.queue q).contribs = [] ∧ (s.queue q).readers = []) →
        ∃ t p, exec (.progLoadComplete (some chunks)) s = .next t
        ∧ t.prog = some p ∧ p.sections = b.sections ∧ p.fingerprint = b.fingerprint ∧ t.fprint = b.fingerprint
        ∧ t.ms.loading = none ∧ fld t.ms.load 63 61 = 2 ∧ t.fsvc.lastStep = none
        ∧ (∀ c, s.fusedOff c = false → (t.core c).sq.st = .ready)
        ∧ t.hp.totalBlocks = x.totalBlocks ∧ t.hp.freeBlocks = x.totalBlocks - BitVec.ofNat 32 charged)

/-- R350 to R352, R369, R370, R372: a frame is taken by the first row of the table that matches, or dropped and counted; the link
comes up and goes down; the stamps of PTP frames; retries, rate and the error of a queue pair. -/
def Obligations.HostPortTakesFrames : Prop :=
  ∀ (s : State), s.cu.failstop = false →
    (∀ f : Frame,
      let bad : Prop := f.badFcs = true ∨ f.addrOk = false ∨ f.fragment = true ∨ f.len < 64 ∨ 9216 < f.len
        ∨ ∃ v, f.vid = some v ∧ v.toNat ≠ fld s.hp.net 11 0
      let drops : Prop := exec (.ethFrameReceive f) s
        = .next { s with hp := { s.hp with linkStat := satAdd s.hp.linkStat 15 0 1 } }
      let used := s.hp.kdmp.foldl (· + ·) 0
      (s.hp.linkUp = false → exec (.ethFrameReceive f) s = .next s)
      ∧ (s.hp.linkUp = true → bad → drops)
      ∧ (s.hp.linkUp = true → ¬bad → f.kind = 0 → bit s.hp.net 12 = true → exec (.ethFrameReceive f) s = .next { s with hp := { s.hp with
          portStatus := setFld s.hp.portStatus 2 2 (if f.udpPort = 0 then 0 else 1) } })
      ∧ (s.hp.linkUp = true → ¬bad → f.kind = 1 → f.udpPort = 36120 → used + f.len ≤ 262144 →
          exec (.ethFrameReceive f) s = .next { s with hp := { s.hp with kdmp := s.hp.kdmp ++ [f.len] } })
      ∧ (s.hp.linkUp = true → ¬bad → f.kind = 1 → f.udpPort = 36120 → 262144 < used + f.len → drops)
      ∧ (s.hp.linkUp = true → ¬bad → 2 < f.kind → drops))
    ∧ exec .hostLinkUp s = .next { s with
        hp := { s.hp with portStatus := s.hp.portStatus ||| 0xFF03 }
        ms := { s.ms with phase := if s.ms.phase = 5 then 6 else s.ms.phase } }
    ∧ exec .hostLinkDown s = .next { s with hp := { s.hp with portStatus := s.hp.portStatus &&& ~~~0xFF07 } }
    ∧ (∀ k : PtpKind, (bit s.fi.timeCfg 47 = false → exec (.hostPtpFrame k) s = .next s)
      ∧ (bit s.fi.timeCfg 47 = true → ∃ t, exec (.hostPtpFrame k) s = .next t ∧ match k with
        | .sync => fld t.hp.ptpRx 63 32 = s.ck.ns.toNat % 2 ^ 32 ∧ fld t.hp.ptpRx 31 0 = s.ck.frac.toNat ∧ t.hp.ptpTx = s.hp.ptpTx
        | .delayReq => fld t.hp.ptpTx 63 32 = s.ck.ns.toNat % 2 ^ 32 ∧ fld t.hp.ptpTx 31 0 = s.ck.frac.toNat
          ∧ t.hp.ptpRx = s.hp.ptpRx))
    ∧ ∀ qp : BitVec 10,
      let q := vget s.hp.qps qp.toNat
      (q.error = true → exec (.qpAckTimeout qp) s = .next s)
      ∧ (q.error = false → q.retries < 7 →
          exec (.qpAckTimeout qp) s = .next (s.modQp qp.toNat fun q => { q with retries := q.retries + 1 }))
      ∧ (q.error = false → 7 ≤ q.retries → ∃ t, exec (.qpAckTimeout qp) s = .next t ∧ (vget t.hp.qps qp.toNat).error = true
          ∧ (s.hp.fault = 0 → fld t.hp.fault 63 48 = 0x0905))
      ∧ exec (.congestionNotification qp) s = .next (s.modQp qp.toNat fun q => { q with rate := q.rate / 2 })
      ∧ exec (.rateRestore qp) s = .next (s.modQp qp.toNat fun q => { q with rate := min 0x100000 (q.rate + 0x10000) })

/-- R353, R355 to R357, R359 to R361: a request record is placed in its section's ring or discarded; an admission cycle refuses,
admits or defers the record that comes next, and gives it its status record; the oldest formed record is written while the host
has room. -/
def Obligations.RequestsAreAnswered : Prop :=
  (∀ (sec : BitVec 4) (send : Bool) (idx : Nat) (r : List Byte) (s : State), s.cu.failstop = false →
    let i := sec.toNat
    let x := s.sec i
    let at_ := if send then (x.next + x.arrived.length) % x.size else idx
    (reachable s i = false → exec (.requestRecordArrival sec send idx r) s = .next s)
    ∧ (reachable s i = true → r.length ≠ 256 ∨ x.size ≤ at_ ∨ bit x.cfg 62 ≠ send →
        exec (.requestRecordArrival sec send idx r) s = .next { s with hp := { s.hp with reqStat := satAdd s.hp.reqStat 11 0 1 } })
    ∧ (reachable s i = true → r.length = 256 → at_ < x.size → bit x.cfg 62 = send →
        x.deferred.any (fun n => n % x.size == at_) = false → unexamined x s.hp.ring at_ = false →
        ∃ t, exec (.requestRecordArrival sec send idx r) s = .next t ∧ Mem.read t.hp.ring (256 * (x.base + at_)) 256 = r
          ∧ (t.sec i).arrived = x.arrived.filter (· != at_) ++ [at_] ∧ (t.sec i).next = x.next
          ∧ ∀ a, a < 256 * (x.base + at_) ∨ 256 * (x.base + at_) + 256 ≤ a → Mem.get t.hp.ring a = Mem.get s.hp.ring a))
  ∧ (∀ (sec : BitVec 4) (v : Word) (s : State), s.cu.failstop = false →
    exec (.hpRcredWrite sec v) s = .next (s.modSec sec.toNat fun x => { x with rcred := v }))
  ∧ (∀ (s : State), s.cu.failstop = false →
    let rotation := (List.range 16).map fun i => (s.hp.rotate + i) % 16
    (s.hp.admitter = false → exec .admissionCycle s = .next s)
    ∧ (s.hp.admitter = true → (∀ c, c < 4 → vget s.hp.queues c = []) →
      (rotation.find? (recordPresent s) = none → exec .admissionCycle s = .next s)
      ∧ ∀ sec, rotation.find? (recordPresent s) = some sec →
        let x := s.sec sec
        let r := x.record s.hp.ring (x.next % x.size)
        let c := recFld r 3 1 % 4
        let room : Prop := s.hp.deferAll = false ∧ mayTake s c (chargeOf s.hp r) ≠ none
        let status (t : State) (st reason : Nat) : Prop := (t.sec sec).next = x.next + 1 ∧ ∃ d, (t.sec sec).statusRecs = x.statusRecs ++ [d]
          ∧ d.vseq = x.vseqA ∧ recFld d.data 2 1 = st ∧ recFld d.data 3 1 = reason ∧ slice d.data 8 8 = slice r 8 8
        x.known = [] →
        (∀ reason, reason < 256 → requestReason s r = some reason → ∃ t, exec .admissionCycle s = .next t ∧ status t 3 reason
          ∧ t.hp.slots = s.hp.slots)
        ∧ (requestReason s r = none → recFld r 2 1 = 1 → room → ∃ t slot, exec .admissionCycle s = .next t ∧ status t 1 0
          ∧ slot < 512 ∧ (vget s.hp.slots slot).st = .free ∧ (vget t.hp.slots slot).st ≠ .free
          ∧ (vget t.hp.slots slot).record = r ∧ (vget t.hp.slots slot).sec = sec ∧ (vget t.hp.slots slot).wgen = s.liveWgen)
        ∧ (requestReason s r = none → recFld r 2 1 = 1 → ¬room → 0 < fld (vget s.hp.cls c) 43 28 → x.deferred.length < x.size - 64 →
          ∃ t, exec .admissionCycle s = .next t ∧ status t 2 0 ∧ t.hp.slots = s.hp.slots
            ∧ vget t.hp.queues c = [{ sec := sec, num := x.next, record := r }])))
  ∧ ∀ (sec : BitVec 4) (role : Role) (s : State), s.cu.failstop = false →
    let em := role == .emitter
    let x := s.sec sec.toNat
    (x.waiting em = [] → exec (.responseRecordWrite sec role) s = .next s)
    ∧ ∀ r rest, x.waiting em = r :: rest →
      (mayWrite s sec.toNat r = false → exec (.responseRecordWrite sec role) s = .next s)
      ∧ (mayWrite s sec.toNat r = true → ∃ t, exec (.responseRecordWrite sec role) s = .next t
        ∧ t.out = s.out ++ [.rdma sec.toNat (responseAddr x em r.vseq) r.data]
        ∧ (t.sec sec.toNat).waiting em = rest ∧ (t.sec sec.toNat).acked em = r.vseq + 1)

/-- R359, R362 to R367: a prompt opens its slot or frees it; a notice that stands at the head of a saddle endpoint opens, answers,
cancels or ends a slot; the records of the emit ring bring tokens, readiness and the end of a slot; held tokens form one record; a
micro-batch takes the ready rows. -/
def Obligations.SlotsRun : Prop :=
  ∀ (s : State), s.cu.failstop = false →
    (∀ (n : BitVec 9) (ep : BitVec 8) (toks : List (BitVec 32)),
      let x := vget s.hp.slots n.toNat
      (x.st = .opening → x.prompt = false → s.hp.admitter = true →
        (∃ t, exec (.promptReadComplete n (some toks)) s = .next t ∧ (vget t.hp.slots n.toNat).prompt = true
          ∧ (x.awaiting = [] → (vget t.hp.slots n.toNat).st = .opened ∧ (vget t.hp.slots n.toNat).readyNs = some s.ck.ns)
          ∧ (x.awaiting ≠ [] → (vget t.hp.slots n.toNat).st = .opening))
        ∧ ∃ t, exec (.promptReadComplete n none) s = .next t ∧ (vget t.hp.slots n.toNat).st = .free)
      ∧ (x.st ≠ .opening → exec (.promptReadComplete n (some toks)) s = .next s)
      ∧ (x.awaiting ≠ [] → ∃ t, exec (.noticeTimeout n) s = .next t ∧ t.hp.slots = s.hp.slots
          ∧ (s.hp.fault = 0 → fld t.hp.fault 63 48 = 0x0904))
      ∧ (x.awaiting = [] → exec (.noticeTimeout n) s = .next s)
      ∧ (headPayload s ep.toNat 8 = some (noticeHead 4 n.toNat) → ∃ t, exec (.noticeReady n ep) s = .next t
          ∧ (vget t.hp.slots n.toNat).awaiting = x.awaiting.filter fun e =>
              (vget s.hp.nsend e).peer.svc != (vget s.hp.nrecv ep.toNat).peer.svc)
      ∧ (headPayload s ep.toNat 8 ≠ some (noticeHead 4 n.toNat) → exec (.noticeReady n ep) s = .next s)
      ∧ (∀ e, noticeAt s (noticeHead 2 n.toNat) = some e → exec (.noticeCancel n) s = .next (admissionRecord
          (sendNotices (freeHead s .port e) (noticeEps s true) (noticeHead 2 n.toNat)) 4
          (leBytes 2 n.toNat ++ List.replicate 30 0)))
      ∧ (∀ e, noticeAt s (noticeHead 3 n.toNat) = some e → ∃ t, exec (.noticeEnd n) s = .next t
          ∧ (vget t.hp.slots n.toNat).st = .free)
      ∧ (x.tokens ≠ [] → ∃ t d, exec (.tokenWindowClose n) s = .next t ∧ (vget t.hp.slots n.toNat).tokens = []
          ∧ (t.sec x.sec).tokenRecs = (s.sec x.sec).tokenRecs ++ (if x.sec < 16 then [d] else []) ∧ recFld d.data 20 1 = x.tokens.length % 256)
      ∧ (x.tokens = [] → exec (.tokenWindowClose n) s = .next s))
    ∧ (∀ o : OpenNotice,
      let bytes := openNotice o.slot.toNat o.wgen o.blocks o.slotGen o.sec.toNat o.request
      (noticeAt s bytes = none → exec (.noticeOpen o) s = .next s)
      ∧ ∀ e, noticeAt s bytes = some e → ∃ t, exec (.noticeOpen o) s = .next t
        ∧ (vget t.hp.slots o.slot.toNat).st = .opened ∧ (vget t.hp.slots o.slot.toNat).wgen = o.wgen
        ∧ (vget t.hp.slots o.slot.toNat).record = slice o.request 0 256 ∧ vget t.tm.slotGen o.slot.toNat = o.slotGen)
    ∧ (∀ r : EmitRec,
      let x := vget s.hp.slots r.slot.toNat
      (s.emits 1 r → recordRoom s x.sec true = true → (s.sec x.sec).tokenRecs = [] →
        (r.pos.toNat ≤ x.lastPos.toNat → ∃ t, exec (.emitToken r) s = .next t ∧ t.hp.slots = s.hp.slots
          ∧ t.hp.emitStat = satAdd s.hp.emitStat 31 16 1)
        ∧ (x.lastPos.toNat < r.pos.toNat → bit r.flags 0 = false → 0 < fld s.hp.ringCfg 31 0 → x.tokens.length < 5 →
          (x.tokens ≠ [] → s.ck.ns.toNat < x.tokenNs.toNat + fld s.hp.ringCfg 31 0) →
          ∃ t, exec (.emitToken r) s = .next t ∧ (vget t.hp.slots r.slot.toNat).lastPos = r.pos
            ∧ (vget t.hp.slots r.slot.toNat).tokens = x.tokens ++ [r.token]))
      ∧ (s.emits 2 r → s.mirrorOn = false → ∃ t, exec (.emitReady r) s = .next t
          ∧ (vget t.hp.slots r.slot.toNat).readyNs = some s.ck.ns ∧ (vget t.hp.slots r.slot.toNat).readyPos = r.pos
          ∧ (vget t.hp.slots r.slot.toNat).stepping = false)
      ∧ (s.mirrorOn = true → s.cu.committed < s.hp.readyMark.getD s.cu.tapped →
          exec (.emitReady r) s = .next { s with hp := { s.hp with readyMark := some (s.hp.readyMark.getD s.cu.tapped) } })
      ∧ (s.emits 3 r → ∃ t, exec (.emitEnd r) s = .next t ∧ (vget t.hp.slots r.slot.toNat).st = .free))
    ∧ (s.hp.admitter = false → exec .microBatchStart s = .next s)
    ∧ (s.hp.admitter = true →
      let u := followLive s
      let all := readyRows u.hp
      let wgen := batchGen u.hp all
      let mine := all.filter fun r => (vget u.hp.slots r.1).wgen == wgen
      (batchRows u mine = none → exec .microBatchStart s = .next u)
      ∧ ∀ rows, batchRows u mine = some rows → ∃ t, exec .microBatchStart s = .next t ∧ t.hp.lastGen = wgen ∧ t.cu = s.cu
        ∧ ∀ i, i < 512 → (rows.any fun r => r.1 == i) = true → (batchGroups (fld s.hp.admCfg 55 49) rows).contains (i / 8) = true →
          (vget t.hp.slots i).stepping = true ∧ (vget t.hp.slots i).readyNs = none)

/-- R224, R225, R227, R363: HP_NEP_CMD accepts a ring, opens a channel, or closes an endpoint, and is refused while one runs. -/
def Obligations.SaddleEndpointsOpenAndClose : Prop :=
  ∀ (e : BitVec 8) (s : State), s.cu.failstop = false →
    let i := e.toNat
    let w := s.hp.nepWord
    let answer (t : State) (r : Status) : Host.Outcome State Machine.Fault Machine.Refusal :=
      .next (t.emit (.mgmt 0x02000000B8 true r 0))
    let ended (t : State) (status : Nat) : Prop := bit t.hp.nepCmd 63 = false ∧ fld t.hp.nepCmd 51 49 = status
    (bit s.hp.nepCmd 63 = true → ∀ c ∈ [Instr.hpNepAccept e, .hpNepOpen e, .hpNepOpenRelay e, .hpNepCloseSend e, .hpNepCloseRecv e],
      exec c s = answer s (.refused .busy))
    ∧ (bit s.hp.nepCmd 63 = false →
      ((vget s.hp.nrecv i).st = .closed → (vget s.hp.nrecv i).waiting = none → nepRingOk s i w = true →
        ∃ t, exec (.hpNepAccept e) s = answer t .ok ∧ ended t 1 ∧ (vget t.hp.nrecv i).st = .listening
          ∧ (vget t.hp.nrecv i).base = fld w 22 0 ∧ (vget t.hp.nrecv i).size.toNat = fld w 35 32)
      ∧ ((vget s.hp.nrecv i).st ≠ .closed → ∃ t, exec (.hpNepAccept e) s = answer t .ok ∧ ended t 5 ∧ t.hp.nrecv = s.hp.nrecv)
      ∧ (∀ relay : Bool, (vget s.hp.nsend i).st = .closed → fld w 39 23 ≤ 65536 →
        ∃ t, exec (if relay then .hpNepOpenRelay e else .hpNepOpen e) s = answer t .ok ∧ bit t.hp.nepCmd 63 = true
          ∧ (vget t.hp.nsend i).st = .opening ∧ (vget t.hp.nsend i).maxlen = fld w 39 23 ∧ (vget t.hp.nsend i).credit = 0
          ∧ (vget t.hp.nsend i).peer.svc = BitVec.ofNat 16 (fld w 63 48) ∧ bit t.hp.relay i = relay)
      ∧ ((vget s.hp.nsend i).st = .opened → 256 ≤ (vget s.hp.nsend i).credit → s.hp.notices.any (fun m => m.1 == i) = false →
        ∃ t, exec (.hpNepCloseSend e) s = answer t .ok ∧ ended t 1 ∧ (vget t.hp.nsend i).st = .closed
          ∧ (vget t.hp.nsend i).inc = (vget s.hp.nsend i).inc + 1)
      ∧ ((vget s.hp.nsend i).st = .opened → (vget s.hp.nsend i).credit < 256 →
        ∃ t, exec (.hpNepCloseSend e) s = answer t .ok ∧ bit t.hp.nepCmd 63 = true ∧ t.hp.nsend = s.hp.nsend)
      ∧ ((vget s.hp.nrecv i).st ≠ .closed → ∃ t, exec (.hpNepCloseRecv e) s = answer t .ok ∧ ended t 1
          ∧ (vget t.hp.nrecv i).st = .closed ∧ (vget t.hp.nrecv i).inc = (vget s.hp.nrecv i).inc + 1))

/-- R7 to R11, R272, R376, R419, R426: a misaligned write is refused with ALIGN; each plain register of the list reads back what was
written to it but for its reserved bits (the arbiters' priorities in LIVE_PRIORITY alone); a locked register takes no write once the configuration is sealed; in a fail-stop a write
is refused but for the fail-stop record and the resets; telemetry is sent while it is configured. -/
def Obligations.RegistersHoldWrites : Prop :=
  (∀ (a : BitVec 40) (v : Word) (s : State),
    let refused (r : Reason) : Prop := exec (.mgmtRegisterWrite a v) s = .next (s.emit (.mgmt a.toNat true (.refused r) 0))
    (a.toNat % 8 ≠ 0 → refused .align)
    ∧ (s.cu.failstop = false → s.pn.arbMode = false → a.toNat ∈ [0x0400000010, 0x0400000018, 0x0400000020] → refused .mode)
    ∧ (∀ mask : Word, s.cu.failstop = false → (a.toNat ∈ [0x0400000010, 0x0400000018, 0x0400000020] → s.pn.arbMode = true) →
        (a.toNat, mask) ∈ ([(0x02000000C0, 0xFFFFFFFFFFFFFFFF), (0x0200000040, 0x3), (0x0300000018, 0xFFFFFFFFFFFFFFFF),
          (0x0300000068, 0xFFFF8000FFFFFF00), (0x0300000078, 0xFFFFFFFF), (0x0400000010, 0xFFFFFFFF), (0x0400000018, 0xFFFFFFFF),
          (0x0400000020, 0xFFFFFFFF), (0x0500800008, 0x1FFFF)] : List (Nat × Word)) →
        ∃ t, exec (.mgmtRegisterWrite a v) s = .next (t.emit (.mgmt a.toNat true .ok 0))
          ∧ (mgmtRead a.toNat t).1 = (.ok, v &&& mask) ∧ t.cores = s.cores ∧ t.tier = s.tier)
    ∧ (s.cu.failstop = false → s.sealed = true →
        a.toNat ∈ [0x0100000058, 0x0200000008, 0x0200000010, 0x0200000018, 0x0200000020, 0x0200000028, 0x0200000030, 0x0300000010,
          0x0300000028, 0x0400000000, 0x0000200040] → refused .sealed)
    ∧ (a.toNat % 8 = 0 → s.cu.failstop = true → a.toNat ∉ [0x0100000008, 0x0100000010, 0x0100000018, 0x0100000020, 0x10] →
        refused .failed))
  ∧ ∀ s : State, (s.ms.periodMs = 0 → exec .telemetry s = .next s)
    ∧ (s.ms.periodMs ≠ 0 → ∃ (t : State) (body : List Byte), exec .telemetry s = .next (t.report 0x23 body)
        ∧ body = wordBytes s.ck.ns ++ ((readAll s (s.ms.addrs.map fun a => a.toNat)).1.map fun x => wordBytes x.2).flatten)

/-- The model's choice of log entry 1 (the manual has no row for a tick): with no command waiting, time passes. In a fail-stop only the clock
block counts (R375); in a step hold and in REST the stall counters of the fabric ports too; else, where no core has a bundle that waits or
anything timed, the count of the package network and each core's own counts: SQ_CYCLE in RUN alone (R148), a release wait's (R136), the
wait of the async port's head row (R162), and drained tiles (R76). -/
def Obligations.IdleTickMovesOnlyTime : Prop :=
  ∀ (s : State), s.pending = [] → ∃ t, step s = .next t
    ∧ (s.cu.failstop = true → { t with ck := s.ck } = s)
    ∧ (s.cu.failstop = false → s.ck.hold.isSome = true ∨ s.ck.rest = true →
        { t with ck := s.ck, fi := s.fi } = s ∧ { t.fi with ports := s.fi.ports } = s.fi)
    ∧ (s.cu.failstop = false → s.ck.hold = none → s.ck.rest = false → (∀ c, s.lively c = false) →
        { t with ck := s.ck, pn := s.pn, cores := s.cores, fi := s.fi } = s ∧ { t.fi with ports := s.fi.ports } = s.fi
        ∧ t.pn = { s.pn with acyc := s.pn.acyc + 2 }
        ∧ ∀ c,
          let k := s.core c
          let run := k.sq.st == .run
          let waits := if k.cm.asyncBuf.isEmpty || k.cm.headServed then 0 else 2
          t.core c = { k with
              sq := { k.sq with
                clk := k.sq.clk + 2, counted := k.sq.counted - 2, cycle := if run then k.sq.cycle + 2 else k.sq.cycle
                releaseCyc := if run && k.sq.release.isSome then satWord k.sq.releaseCyc 2 else k.sq.releaseCyc }
              me := { k.me with tiles := k.me.tiles.map (Tile.settle (k.sq.clk + 2)) }
              ve := { k.ve with stickyNow := 0, drainNow := 0 }
              cm := { k.cm with headWait := k.cm.headWait + waits, asyncStat := satAdd k.cm.asyncStat 47 24 waits }
              dma := (t.core c).dma }
          ∧ ((k.dma.queues.toList.any fun q => q.descs.any (·.ended)) = false → (t.core c).dma = k.dma))

/-- R406: after a cold reset each of the listed registers reads the value that its table gives for reset; no core runs, no packet is
under way and no command waits. -/
def Obligations.RegistersReadTheirResetValues : Prop :=
  (∀ x ∈ ([
      -- the defaults of chapters 6, 9, 10, 13, 16 and 17
      (0x1000100000, 0xF0000000), (0x1000400008, 0x000F424000100000), (0x0400000008, 0x001000100010),
      (0x0300000018, 0x00100000040003E8), (0x0300000020, 0x0000020000000100), (0x0300000068, 0x00000000007D0800),
      (0x0300000078, 0x3E8), (0x0000200000, 0x0000020000000010), (0x0000200040, 0x80), (0x0000200070, 0x488),
      -- and registers whose value is 0
      (0x1000000010, 0), (0x1000500000, 0), (0x0500000008, 0), (0x0500800008, 0), (0x0400000028, 0), (0x0401000000, 0),
      (0x0100000008, 0), (0x0100000038, 0), (0x0200000038, 0), (0x0200001000, 0)] : List (Nat × Word)),
    (mgmtRead x.1 State.reset).1 = (.ok, x.2))
  ∧ State.reset.pending = [] ∧ State.reset.net = [] ∧ State.reset.cu.failstop = false
  ∧ ∀ c, (State.reset.core c).sq.st = .idle

/-- R91 to R100, R115 to R117: with nothing else under way at the core, a lane instruction writes to each lane of its result its function of the
lanes before it, with the flags of VE_STATUS; a special function its function of the lane; a shuffle the lane that its distance names, or 0; VLD
copies rows of core memory to the VOB and VST rows of the VOB to core memory. No other byte, register or unit changes. -/
def Obligations.VectorLanesAndMoves : Prop :=
  ∀ (i : Issue) (s : State),
    let c := i.core
    let k := s.core c
    let b := i.bits
    let vob (off : Bool) (field : Nat) : Nat :=
      32 * (field + if off then (vget k.sq.a (fld b 41 38)).toNat / 32 % 2 ^ 11 else 0)
    let n := fld b 55 42 + 1
    let dst := vob (bit b 37) (fld b 34 24)
    let src1 := vob (bit b 36) (fld b 23 13)
    let src2 := vob (bit b 35) (fld b 12 2)
    let region (a bytes : Nat) : Region := { base := a, per := 1024, total := bytes }
    let sum (rs : List (Nat × VFlags)) : VFlags := (rs.map (·.2)).foldl VFlags.or {}
    let int (f : BitVec 32 → BitVec 32 → BitVec 32) : Nat → Nat → Nat → Nat × VFlags :=
      fun x y _ => ((f (BitVec.ofNat 32 x) (BitVec.ofNat 32 y)).toNat, {})
    let test (f : Val → Val → Bool) : Nat → Nat → Nat → Nat × VFlags := fun x y _ => (if f (f32 x) (f32 y) then 0xFFFFFFFF else 0, {})
    let two (g : FloatFmt) (f : Val → Val → Val) : Nat → Nat → Nat → Nat × VFlags :=
      fun x y _ => ofConv (laneResult g [g.decode x, g.decode y] (f (g.decode x) (g.decode y)))
    let three (g : FloatFmt) : Nat → Nat → Nat → Nat × VFlags :=
      fun x y z => ofConv (laneResult g [g.decode x, g.decode y, g.decode z] (((g.decode x).mul (g.decode y)).add (g.decode z)))
    (∀ (ctor : Issue → Instr) (op : BitVec 8) (w lat : Nat) (dest : Bool) (f : Nat → Nat → Nat → Nat × VFlags),
      (ctor, op, w, lat, dest, f) ∈ ([
        (.vaddF32, 0x40, 32, 3, false, two fp32 Val.add), (.vsubF32, 0x41, 32, 3, false, two fp32 fun x y => x.add y.neg),
        (.vmulF32, 0x42, 32, 3, false, two fp32 Val.mul), (.vfmaF32, 0x43, 32, 4, true, three fp32),
        (.vmaxF32, 0x44, 32, 3, false, two fp32 Val.maxV), (.vminF32, 0x45, 32, 3, false, two fp32 Val.minV),
        (.vaddBf16, 0x48, 16, 3, false, two bf16 Val.add), (.vsubBf16, 0x49, 16, 3, false, two bf16 fun x y => x.add y.neg),
        (.vmulBf16, 0x4A, 16, 3, false, two bf16 Val.mul), (.vfmaBf16, 0x4B, 16, 4, true, three bf16),
        (.vmaxBf16, 0x4C, 16, 3, false, two bf16 Val.maxV), (.vminBf16, 0x4D, 16, 3, false, two bf16 Val.minV),
        (.vaddI32, 0x50, 32, 3, false, int fun x y => x + y), (.vsubI32, 0x51, 32, 3, false, int fun x y => x - y),
        (.vmulI32, 0x52, 32, 3, false, int fun x y => x * y), (.vand, 0x53, 32, 3, false, int fun x y => x &&& y),
        (.vor, 0x54, 32, 3, false, int fun x y => x ||| y), (.vxor, 0x55, 32, 3, false, int fun x y => x ^^^ y),
        (.vshlI32, 0x56, 32, 3, false, int fun x y => x <<< (y.toNat % 32)),
        (.vshrI32, 0x57, 32, 3, false, int fun x y => x.sshiftRight (y.toNat % 32)),
        (.vmaxI32, 0x58, 32, 3, false, int fun x y => if x.toInt < y.toInt then y else x),
        (.vminI32, 0x59, 32, 3, false, int fun x y => if x.toInt < y.toInt then x else y),
        (.vcmpltI32, 0x5B, 32, 3, false, int fun x y => if x.toInt < y.toInt then 0xFFFFFFFF else 0),
        (.vcmpltF32, 0x5C, 32, 3, false, test Val.lt), (.vcmpleF32, 0x5D, 32, 3, false, test fun x y => x.lt y || x.eqV y),
        (.vcmpeqF32, 0x5E, 32, 3, false, test Val.eqV),
        (.vsel, 0x5F, 32, 3, true, fun x y z =>
          (((BitVec.ofNat 32 z &&& BitVec.ofNat 32 x) ||| (~~~BitVec.ofNat 32 z &&& BitVec.ofNat 32 y)).toNat, {}))] :
          List ((Issue → Instr) × BitVec 8 × Nat × Nat × Bool × (Nat → Nat → Nat → Nat × VFlags))) →
      IssuesAlone op i s →
      let e := 8192 / w
      let bytes := n * (w / 8)
      ∃ t, exec (ctor i) s = .next t ∧ (t.core c).sq.pc.toNat = k.sq.pc.toNat + 1
        ∧ s.lands t c lat ((n + e - 1) / e)
          ([region src1 bytes] ++ (if bit b 1 then [] else [region src2 bytes]) ++ (if dest then [region dst bytes] else []))
          [region dst bytes] fun m =>
            let xs := chunkCodes k.ve.vob src1 w n e m
            let ys := chunkCodes k.ve.vob src2 w n e m
            let zs := chunkCodes k.ve.vob dst w n e m
            let rs := (List.range (chunkLen n e m)).map fun j =>
              f (xs.getD j 0) (if bit b 1 then (vget k.sq.s (fld b 6 2)).toNat % 2 ^ w else ys.getD j 0) (zs.getD j 0)
            ([(dst + 1024 * m, pack w (rs.map (·.1)))], sum rs))
    ∧ (∀ (ctor : Issue → Instr) (op : BitVec 8) (lat : Nat) (pole : Bool) (f : Val → Val),
      (ctor, op, lat, pole, f) ∈ ([
        (.vexp2, 0x68, if s.part.isA1 then 9 else 7, false, exp2Val), (.vlog2, 0x69, 8, true, log2Val), (.vrcp, 0x6A, 6, true, rcpVal),
        (.vrsqrt, 0x6B, 6, true, rsqrtVal), (.vtanh, 0x6C, 10, false, tanhVal), (.vsigm, 0x6D, 10, false, sigmVal)] :
          List ((Issue → Instr) × BitVec 8 × Nat × Bool × (Val → Val))) →
      IssuesAlone op i s →
      ∃ t, exec (ctor i) s = .next t ∧ (t.core c).sq.pc.toNat = k.sq.pc.toNat + 1
        ∧ s.lands t c lat ((n + 255) / 256) [region src1 (4 * n)] [region dst (4 * n)] fun m =>
            let rs := (chunkCodes k.ve.vob src1 32 n 256 m).map (specialLane f pole)
            ([(dst + 1024 * m, pack 32 (rs.map (·.code)))],
              (rs.map fun r => ({ invalid := r.invalid, overflow := r.overflow, divzero := r.divzero } : VFlags)).foldl VFlags.or {}))
    ∧ (∀ (ctor : Issue → Instr) (op : BitVec 8) (from_ : Nat → Nat → Option Nat),
      (ctor, op, from_) ∈ ([
        (.vshufBfly, 0x70, fun d j => some (j ^^^ d)), (.vshufRot, 0x71, fun d j => some ((j + d) % 256)),
        (.vshufBcast, 0x72, fun d _ => some d), (.vshufShup, 0x73, fun d j => if d ≤ j then some (j - d) else none)] :
          List ((Issue → Instr) × BitVec 8 × (Nat → Nat → Option Nat))) →
      IssuesAlone op i s →
      ∃ t, exec (ctor i) s = .next t ∧ (t.core c).sq.pc.toNat = k.sq.pc.toNat + 1
        ∧ s.lands t c 2 ((n + 255) / 256) [region src1 (4 * n)] [region dst (4 * n)] fun m =>
            let xs := chunkCodes k.ve.vob src1 32 n 256 m
            ([(dst + 1024 * m, pack 32 ((List.range (chunkLen n 256 m)).map fun j => match from_ (fld b 9 2) j with
              | some l => xs.getD l 0
              | none => 0))], {}))
    ∧ (let a := (vget k.sq.a (fld b 43 40)).toNat + fld b 39 25 * 256
       let v := 32 * fld b 24 14
       let rows := fld b 51 44 + 1
       let chunks := (rows + 3) / 4
       (IssuesAlone 0x7C i s → ∃ t, exec (.vld i) s = .next t ∧ (t.core c).sq.pc.toNat = k.sq.pc.toNat + 1
          ∧ s.lands t c 3 chunks [] [region v (256 * rows)] fun m =>
            ([(v + 1024 * m, Mem.read k.cm.mem (a + 1024 * m) (256 * min 4 (rows - 4 * m)))], {}))
       ∧ (IssuesAlone 0x7D i s → ∃ t, exec (.vst i) s = .next t ∧ (t.core c).sq.pc.toNat = k.sq.pc.toNat + 1
          ∧ (s.calm c →
              let u := t.pass c (chunks + 1)
              Mem.read (u.core c).cm.mem a (256 * rows) = Mem.read k.ve.vob v (256 * rows)
                ∧ (∀ x, x < a ∨ a + 256 * rows ≤ x → Mem.get (u.core c).cm.mem x = Mem.get k.cm.mem x)
                ∧ keepsRegs c [] s u ∧ k.keepsSq (u.core c) ∧ k.keepsMe (u.core c) ∧ k.keepsVe (u.core c) ∧ k.keepsDma (u.core c)
                ∧ k.keepsCq (u.core c) ∧ s.onlyCore u c)))

/-- R101 to R113: with nothing else under way at the core, VCVT converts codes from one format to another, VQMX quantises blocks of 32 with
their scales and VDQMX undoes it, the WIDE112 instructions add, rebase and convert containers, VRAND writes the generator's words, VXS takes a
word to a register, and DRAIN takes the head of the queue: its tile is converted into the VOB, its entry goes to a register where asked, and the
queue and the tile are freed. A DRAIN of an FP32 tile for WIDE112 output faults after issue. -/
def Obligations.VectorConversions : Prop :=
  ∀ (i : Issue) (s : State),
    let c := i.core
    let k := s.core c
    let b := i.bits
    let a1 := s.part.isA1
    let vob (off : Bool) (ar field : Nat) : Nat := 32 * (field + if off then (vget k.sq.a ar).toNat / 32 % 2 ^ 11 else 0)
    let region (base per total : Nat) : Region := { base, per, total }
    let flags (rs : List Conv) : VFlags :=
      (rs.map fun r => ({ invalid := r.invalid, overflow := r.overflow } : VFlags)).foldl VFlags.or {}
    let gen (kreg n : Nat) : Nat := (genWord (vget k.sq.s kreg) (vget k.sq.s (kreg + 1)) (vget k.sq.s (kreg + 2)) n).toNat
    (IssuesAlone 0x60 i s →
      let n := fld b 55 42 + 1
      let dst := vob (bit b 2) 15 (fld b 29 19)
      let src := vob (bit b 1) 15 (fld b 18 8)
      ∃ fs fd t, fmtOf (fld b 41 38) = some fs ∧ fmtOf (fld b 37 34) = some fd ∧ exec (.vcvt i) s = .next t
        ∧ s.lands t c 3 ((n + 255) / 256) [region src (32 * fs.width) (n * fs.width / 8)] [region dst (32 * fd.width) (n * fd.width / 8)]
          fun m =>
            let xs := chunkCodes k.ve.vob src fs.width n 256 m
            let rs := (List.range xs.length).map fun j =>
              fd.convert { mode := fld b 33 31, sat := bit b 30, r := if fld b 33 31 = 4 then gen (fld b 7 3) (256 * m + j) / 2 ^ 16 else 0 }
                (fs.decode (xs.getD j 0))
            ([(dst + 32 * fd.width * m, pack fd.width (rs.map (·.code)))], flags rs))
    ∧ (let n := fld b 55 42 + 1
       let dst := vob false 0 (fld b 37 27)
       let src := vob false 0 (fld b 26 16)
       let sca := vob false 0 (fld b 15 5)
       (IssuesAlone 0x64 i s → ∃ f t, fmtOf (fld b 41 38) = some (.float f) ∧ exec (.vqmx i) s = .next t
          ∧ s.lands t c 5 ((n + 255) / 256) [region src 1024 (4 * n)]
            [region dst (32 * (1 + f.eb + f.mb)) (n * (1 + f.eb + f.mb) / 8), region sca 8 (n / 32)] fun m =>
              let xs := (chunkCodes k.ve.vob src 32 n 256 m).map f32
              let qs := (List.range (xs.length / 32)).map fun j => quantise f ((xs.drop (32 * j)).take 32)
              ([(dst + 32 * (1 + f.eb + f.mb) * m, pack (1 + f.eb + f.mb) (qs.flatMap fun q => q.2.map (·.code))),
                (sca + 8 * m, qs.map fun q => BitVec.ofNat 8 q.1)], flags (qs.flatMap (·.2))))
       ∧ (IssuesAlone 0x65 i s → ∃ f t, fmtOf (fld b 41 38) = some (.float f) ∧ exec (.vdqmx i) s = .next t
          ∧ s.lands t c 3 ((n + 255) / 256)
            [region src (32 * (1 + f.eb + f.mb)) (n * (1 + f.eb + f.mb) / 8), region sca 8 (n / 32)] [region dst 1024 (4 * n)] fun m =>
              let xs := chunkCodes k.ve.vob src (1 + f.eb + f.mb) n 256 m
              let rs := (List.range xs.length).map fun j =>
                fp32.convert {} (mxVal (f.decode (xs.getD j 0)) (Mem.get k.ve.vob (sca + 8 * m + j / 32)).toNat)
              ([(dst + 1024 * m, pack 32 (rs.map (·.code)))], flags rs)))
    ∧ (let n := fld b 55 44 + 1
       let anchor := sfld b 43 34
       let dst := vob false 0 (fld b 33 23)
       let src := vob false 0 (fld b 22 12)
       let par := vob false 0 (fld b 11 1)
       let xs (m : Nat) : List (BitVec 128) := (chunkCodes k.ve.vob src 128 n 64 m).map (BitVec.ofNat 128)
       let chunks := (n + 63) / 64
       let wide (m : Nat) (f : Nat → BitVec 128 → BitVec 128) : ChunkResult :=
         ([(dst + 1024 * m, pack 128 ((List.range (xs m).length).map fun j => (f j ((xs m).getD j 0)).toNat))], {})
       (IssuesAlone 0x61 i s → ∃ t, exec (.vwadd i) s = .next t
          ∧ s.lands t c 3 chunks [region src 1024 (16 * n), region par 1024 (16 * n)] [region dst 1024 (16 * n)] fun m =>
            wide m fun j x => wideAdd x (BitVec.ofNat 128 ((chunkCodes k.ve.vob par 128 n 64 m).getD j 0)))
       ∧ (IssuesAlone 0x62 i s → ∃ t, exec (.vwaddf i) s = .next t
          ∧ s.lands t c 4 chunks [region src 1024 (16 * n), region par 256 (4 * n)] [region dst 1024 (16 * n)] fun m =>
            wide m fun j x => wideAdd x (contribOf anchor (f32 ((chunkCodes k.ve.vob par 32 n 64 m).getD j 0))).c)
       ∧ (IssuesAlone 0x63 i s → ∃ t, exec (.vwrebase i) s = .next t
          ∧ s.lands t c 3 chunks [region src 1024 (16 * n)] [region dst 1024 (16 * n)] fun m =>
            wide m fun _ x => wideRebase anchor (sfld b 10 1) x)
       ∧ (IssuesAlone 0x66 i s → ∃ f t, fmtOf (fld b 11 8) = some f ∧ exec (.vwcvt i) s = .next t
          ∧ s.lands t c 3 chunks [region src 1024 (16 * n)] [region dst (8 * f.width) (n * f.width / 8)] fun m =>
              let rs := (xs m).map fun x => match f with
                | .wide => ({ code := x.toNat } : Conv)
                | f => wideConvert f { mode := fld b 7 5, sat := bit b 4 } anchor x
              ([(dst + 8 * f.width * m, pack f.width (rs.map (·.code)))], flags rs)))
    ∧ (IssuesAlone 0x74 i s →
      let n := fld b 55 42 + 1
      let dst := vob (bit b 20) (fld b 24 21) (fld b 35 25)
      ∃ t, exec (.vrand i) s = .next t
        ∧ s.lands t c 12 ((n + 255) / 256) [] [region dst 1024 (4 * n)] fun m =>
            ([(dst + 1024 * m, pack 32 ((List.range (chunkLen n 256 m)).map fun j =>
              let w := gen (fld b 40 36) (256 * m + j)
              if bit b 41 then toF32 (.fin false (w / 256) (-24)) else w))], {}))
    ∧ (IssuesAlone 0x76 i s →
      ∃ t, exec (.vxs i) s = .next t
        ∧ (s.calm c →
            let u := t.pass c 2
            readU u c (fld b 55 51)
                = BitVec.ofNat 64 (ofLe (Mem.read k.ve.vob (vob (bit b 32) (fld b 36 33) (fld b 50 40) + 4 * fld b 39 37) 4))
              ∧ s.plainly u c [fld b 55 51] (k.sq.pc.toNat + 1)))
    ∧ (∀ (e : Word) (rest : List Word), IssuesAlone 0x78 i s → k.me.ftq = e :: rest →
      let f := fld b 55 52
      let tile := fld e 62 59
      let groups := fld e 54 52 + 1
      let rows := if f = 10 then 2 else 8
      let chunks := if f = 10 then 4 * groups else groups
      let per := rows * 64 * widthOf f / 8
      let dst := vob (bit b 32) (fld b 36 33) (fld b 47 37)
      let unfit : Prop := f = 10 ∧ bit (vget k.me.tiles tile).desc 53 = true
      (unfit → ∃ t, exec (.drain i) s = .next t ∧ (t.core c).sq.st = .fault
          ∧ (k.sq.fault = 0 → fld (t.core c).sq.fault 63 48 = 0x0301) ∧ (s.calm c → (t.core c).ve.vob = k.ve.vob ∧ (t.core c).me.ftq = k.me.ftq))
      ∧ (¬unfit → ∃ t, exec (.drain i) s = .next t
          ∧ (s.calm c → tile < 8 → (∀ n, n < 8 → (vget k.me.tiles n).st ≠ .done) →
              let lat := if a1 then 5 else 4
              let u := t.pass c (lat + chunks - 1)
              (u.core c).ve.vob = applyWrites k.ve.vob ((List.range chunks).map fun m =>
                  (dst + per * m, pack (widthOf f) ((List.range (rows * 64)).map fun j => (drainConv k b tile (rows * m + j / 64) (j % 64)).code)))
                ∧ (t.core c).me.ftq = rest ∧ vget (u.core c).me.tiles tile = {} ∧ (u.core c).me.acc = k.me.acc
                ∧ fld (u.core c).ve.drainStatus 51 48 = tile ∧ fld (u.core c).ve.drainStatus 47 32 = fld e 47 32
                ∧ fld (u.core c).ve.drainStatus 31 0 = min (fld k.ve.drainStatus 31 0 + 1) (2 ^ 32 - 1)
                ∧ (bit b 21 = true → readU u c (fld b 26 22) = e)
                ∧ keepsRegs c (if bit b 21 then [fld b 26 22] else []) s u ∧ k.keepsCm (u.core c) ∧ k.keepsDma (u.core c)
                ∧ k.keepsCq (u.core c) ∧ s.onlyCore u c)))

/-- R375, R376: whatever the commands, a package in a fail-stop stays in it until a reset: no core runs on, and nothing of what the
cores, the tier memory, the page map, the tollgates, the program and the network hold changes. -/
def Obligations.FailStopHoldsUntilReset : Prop :=
  ∀ (s t : State), s.cu.failstop = true → (∀ c rest, s.pending = c :: rest → resets c = false) → step s = .next t →
    t.cu.failstop = true ∧ t.tier = s.tier ∧ t.pageMap = s.pageMap ∧ t.tgs = s.tgs ∧ t.saddleQ = s.saddleQ ∧ t.prog = s.prog
      ∧ t.ws = s.ws ∧ t.net = s.net
      ∧ ∀ c, (t.core c).sq = (s.core c).sq ∧ (t.core c).me = (s.core c).me ∧ (t.core c).ve = (s.core c).ve
          ∧ (t.core c).dma = (s.core c).dma ∧ (t.core c).cq = (s.core c).cq ∧ (t.core c).cm.mem = (s.core c).cm.mem

/-- The interface of a block: no command touches the queue of waiting commands, takes back what has left the package, or changes
the ordering code of the part. -/
def Obligations.CommandsLeaveTheirQueue : Prop :=
  ∀ (c : Instr) (s t : State), exec c s = .next t → t.pending = s.pending ∧ s.out <+: t.out ∧ t.part = s.part

/-- Every memory keeps its canonical form: whatever the command, what a step leaves is canonical when what it found was. -/
def Obligations.StepKeepsMemoriesCanonical : Prop :=
  ∀ (s t : State), s.memsWf → step s = .next t → t.memsWf

/-- Every memory of the device is canonical after reset: it lists nothing. -/
def Obligations.ResetMemoriesAreCanonical : Prop :=
  State.reset.memsWf ∧ State.reset.tier = [] ∧ State.reset.pageMap = []
    ∧ ∀ c, (State.reset.core c).sq.imem = [] ∧ (State.reset.core c).cm.mem = []
end

