-- ==== Sys2Proof/Laws/Bits.lean ====
section
/-! SUPPORT. Fields of words: what a field set reads as, and what fields joined by OR read as. -/

namespace Sys2Proof.Machine

theorem fld_lt {n : Nat} (w : BitVec n) (hi lo : Nat) : fld w hi lo < 2 ^ (hi + 1 - lo) :=
  Nat.mod_lt _ (Nat.two_pow_pos _)

/-- A field of two words joined by OR. -/
theorem fld_or (x y : Word) (hi lo : Nat) : fld (x ||| y) hi lo = fld x hi lo ||| fld y hi lo := by
  unfold fld
  rw [BitVec.toNat_or, ← Nat.shiftRight_eq_div_pow, ← Nat.shiftRight_eq_div_pow, ← Nat.shiftRight_eq_div_pow,
    Nat.shiftRight_or_distrib, Nat.or_mod_two_pow]

/-- The word of one field as a number. -/
theorem fw_toNat (hi lo v : Nat) (h : hi < 64) (hl : lo ≤ hi) :
    (fw hi lo v).toNat = v % 2 ^ (hi + 1 - lo) * 2 ^ lo := by
  have hz : fld (0 : Word) hi lo = 0 := by simp [fld]
  have hb : v % 2 ^ (hi + 1 - lo) * 2 ^ lo < 2 ^ 64 := by
    have h1 : v % 2 ^ (hi + 1 - lo) < 2 ^ (hi + 1 - lo) := Nat.mod_lt _ (Nat.two_pow_pos _)
    calc v % 2 ^ (hi + 1 - lo) * 2 ^ lo < 2 ^ (hi + 1 - lo) * 2 ^ lo := Nat.mul_lt_mul_of_pos_right h1 (Nat.two_pow_pos _)
      _ = 2 ^ (hi + 1) := by rw [← Nat.pow_add]; congr 1; omega
      _ ≤ 2 ^ 64 := Nat.pow_le_pow_right (by decide) (by omega)
  unfold fw setFld
  rw [hz]
  simp only [BitVec.toNat_ofNat, BitVec.ofNat_eq_ofNat]
  rw [Nat.mod_eq_of_lt (by omega)]
  omega

/-- A field reads what was put into it. -/
theorem fld_fw_same (hi lo v : Nat) (h : hi < 64) (hl : lo ≤ hi) : fld (fw hi lo v) hi lo = v % 2 ^ (hi + 1 - lo) := by
  unfold fld
  rw [fw_toNat hi lo v h hl, Nat.mul_div_cancel _ (Nat.two_pow_pos _), Nat.mod_mod]

/-- A field above another reads zero. -/
theorem fld_fw_above (hi lo v a b : Nat) (h : hi < 64) (hl : lo ≤ hi) (hb : hi < b) : fld (fw hi lo v) a b = 0 := by
  unfold fld
  rw [fw_toNat hi lo v h hl, Nat.div_eq_of_lt, Nat.zero_mod]
  have h1 : v % 2 ^ (hi + 1 - lo) < 2 ^ (hi + 1 - lo) := Nat.mod_lt _ (Nat.two_pow_pos _)
  calc v % 2 ^ (hi + 1 - lo) * 2 ^ lo < 2 ^ (hi + 1 - lo) * 2 ^ lo := Nat.mul_lt_mul_of_pos_right h1 (Nat.two_pow_pos _)
    _ = 2 ^ (hi + 1) := by rw [← Nat.pow_add]; congr 1; omega
    _ ≤ 2 ^ b := Nat.pow_le_pow_right (by decide) (by omega)

/-- A field below another reads zero. -/
theorem fld_fw_below (hi lo v a b : Nat) (h : hi < 64) (hl : lo ≤ hi) (ha : a < lo) (hab : b ≤ a) : fld (fw hi lo v) a b = 0 := by
  unfold fld
  rw [fw_toNat hi lo v h hl]
  obtain ⟨k, hk⟩ : ∃ k, lo = b + k := ⟨lo - b, by omega⟩
  rw [hk, Nat.pow_add, Nat.mul_left_comm, Nat.mul_div_cancel_left _ (Nat.two_pow_pos _)]
  obtain ⟨j, hj⟩ : ∃ j, k = (a + 1 - b) + j := ⟨k - (a + 1 - b), by omega⟩
  rw [hj, Nat.pow_add, Nat.mul_left_comm, Nat.mul_mod_right]

end Sys2Proof.Machine
end

