-- ==== Sys2Proof/Laws/State.lean ====
section
/-! SUPPORT. What each named update of the state does to each field: one lemma for each field and update, true by rfl. -/

namespace Sys2Proof.Machine

variable (s : State)

/-! setCore c k -/

@[simp] theorem State.setCore_part (c : CoreId) (k : CoreSt) : (s.setCore c k).part = s.part := rfl
@[simp] theorem State.setCore_tier (c : CoreId) (k : CoreSt) : (s.setCore c k).tier = s.tier := rfl
@[simp] theorem State.setCore_pageMap (c : CoreId) (k : CoreSt) : (s.setCore c k).pageMap = s.pageMap := rfl
@[simp] theorem State.setCore_sqStore (c : CoreId) (k : CoreSt) : (s.setCore c k).sqStore = s.sqStore := rfl
@[simp] theorem State.setCore_tm (c : CoreId) (k : CoreSt) : (s.setCore c k).tm = s.tm := rfl
@[simp] theorem State.setCore_tgs (c : CoreId) (k : CoreSt) : (s.setCore c k).tgs = s.tgs := rfl
@[simp] theorem State.setCore_saddleQ (c : CoreId) (k : CoreSt) : (s.setCore c k).saddleQ = s.saddleQ := rfl
@[simp] theorem State.setCore_pn (c : CoreId) (k : CoreSt) : (s.setCore c k).pn = s.pn := rfl
@[simp] theorem State.setCore_fi (c : CoreId) (k : CoreSt) : (s.setCore c k).fi = s.fi := rfl
@[simp] theorem State.setCore_hp (c : CoreId) (k : CoreSt) : (s.setCore c k).hp = s.hp := rfl
@[simp] theorem State.setCore_ws (c : CoreId) (k : CoreSt) : (s.setCore c k).ws = s.ws := rfl
@[simp] theorem State.setCore_prog (c : CoreId) (k : CoreSt) : (s.setCore c k).prog = s.prog := rfl
@[simp] theorem State.setCore_fsvc (c : CoreId) (k : CoreSt) : (s.setCore c k).fsvc = s.fsvc := rfl
@[simp] theorem State.setCore_cu (c : CoreId) (k : CoreSt) : (s.setCore c k).cu = s.cu := rfl
@[simp] theorem State.setCore_ck (c : CoreId) (k : CoreSt) : (s.setCore c k).ck = s.ck := rfl
@[simp] theorem State.setCore_ms (c : CoreId) (k : CoreSt) : (s.setCore c k).ms = s.ms := rfl
@[simp] theorem State.setCore_fprint (c : CoreId) (k : CoreSt) : (s.setCore c k).fprint = s.fprint := rfl
@[simp] theorem State.setCore_reinLimit (c : CoreId) (k : CoreSt) : (s.setCore c k).reinLimit = s.reinLimit := rfl
@[simp] theorem State.setCore_sealed (c : CoreId) (k : CoreSt) : (s.setCore c k).sealed = s.sealed := rfl
@[simp] theorem State.setCore_svc (c : CoreId) (k : CoreSt) : (s.setCore c k).svc = s.svc := rfl
@[simp] theorem State.setCore_slot (c : CoreId) (k : CoreSt) : (s.setCore c k).slot = s.slot := rfl
@[simp] theorem State.setCore_pinc (c : CoreId) (k : CoreSt) : (s.setCore c k).pinc = s.pinc := rfl
@[simp] theorem State.setCore_errs (c : CoreId) (k : CoreSt) : (s.setCore c k).errs = s.errs := rfl
@[simp] theorem State.setCore_coreFaults (c : CoreId) (k : CoreSt) : (s.setCore c k).coreFaults = s.coreFaults := rfl
@[simp] theorem State.setCore_net (c : CoreId) (k : CoreSt) : (s.setCore c k).net = s.net := rfl
@[simp] theorem State.setCore_out (c : CoreId) (k : CoreSt) : (s.setCore c k).out = s.out := rfl
@[simp] theorem State.setCore_draws (c : CoreId) (k : CoreSt) : (s.setCore c k).draws = s.draws := rfl
@[simp] theorem State.setCore_pending (c : CoreId) (k : CoreSt) : (s.setCore c k).pending = s.pending := rfl

/-! modCore c f -/

@[simp] theorem State.modCore_part (c : CoreId) (f : CoreSt → CoreSt) : (s.modCore c f).part = s.part := rfl
@[simp] theorem State.modCore_tier (c : CoreId) (f : CoreSt → CoreSt) : (s.modCore c f).tier = s.tier := rfl
@[simp] theorem State.modCore_pageMap (c : CoreId) (f : CoreSt → CoreSt) : (s.modCore c f).pageMap = s.pageMap := rfl
@[simp] theorem State.modCore_sqStore (c : CoreId) (f : CoreSt → CoreSt) : (s.modCore c f).sqStore = s.sqStore := rfl
@[simp] theorem State.modCore_tm (c : CoreId) (f : CoreSt → CoreSt) : (s.modCore c f).tm = s.tm := rfl
@[simp] theorem State.modCore_tgs (c : CoreId) (f : CoreSt → CoreSt) : (s.modCore c f).tgs = s.tgs := rfl
@[simp] theorem State.modCore_saddleQ (c : CoreId) (f : CoreSt → CoreSt) : (s.modCore c f).saddleQ = s.saddleQ := rfl
@[simp] theorem State.modCore_pn (c : CoreId) (f : CoreSt → CoreSt) : (s.modCore c f).pn = s.pn := rfl
@[simp] theorem State.modCore_fi (c : CoreId) (f : CoreSt → CoreSt) : (s.modCore c f).fi = s.fi := rfl
@[simp] theorem State.modCore_hp (c : CoreId) (f : CoreSt → CoreSt) : (s.modCore c f).hp = s.hp := rfl
@[simp] theorem State.modCore_ws (c : CoreId) (f : CoreSt → CoreSt) : (s.modCore c f).ws = s.ws := rfl
@[simp] theorem State.modCore_prog (c : CoreId) (f : CoreSt → CoreSt) : (s.modCore c f).prog = s.prog := rfl
@[simp] theorem State.modCore_fsvc (c : CoreId) (f : CoreSt → CoreSt) : (s.modCore c f).fsvc = s.fsvc := rfl
@[simp] theorem State.modCore_cu (c : CoreId) (f : CoreSt → CoreSt) : (s.modCore c f).cu = s.cu := rfl
@[simp] theorem State.modCore_ck (c : CoreId) (f : CoreSt → CoreSt) : (s.modCore c f).ck = s.ck := rfl
@[simp] theorem State.modCore_ms (c : CoreId) (f : CoreSt → CoreSt) : (s.modCore c f).ms = s.ms := rfl
@[simp] theorem State.modCore_fprint (c : CoreId) (f : CoreSt → CoreSt) : (s.modCore c f).fprint = s.fprint := rfl
@[simp] theorem State.modCore_reinLimit (c : CoreId) (f : CoreSt → CoreSt) : (s.modCore c f).reinLimit = s.reinLimit := rfl
@[simp] theorem State.modCore_sealed (c : CoreId) (f : CoreSt → CoreSt) : (s.modCore c f).sealed = s.sealed := rfl
@[simp] theorem State.modCore_svc (c : CoreId) (f : CoreSt → CoreSt) : (s.modCore c f).svc = s.svc := rfl
@[simp] theorem State.modCore_slot (c : CoreId) (f : CoreSt → CoreSt) : (s.modCore c f).slot = s.slot := rfl
@[simp] theorem State.modCore_pinc (c : CoreId) (f : CoreSt → CoreSt) : (s.modCore c f).pinc = s.pinc := rfl
@[simp] theorem State.modCore_errs (c : CoreId) (f : CoreSt → CoreSt) : (s.modCore c f).errs = s.errs := rfl
@[simp] theorem State.modCore_coreFaults (c : CoreId) (f : CoreSt → CoreSt) : (s.modCore c f).coreFaults = s.coreFaults := rfl
@[simp] theorem State.modCore_net (c : CoreId) (f : CoreSt → CoreSt) : (s.modCore c f).net = s.net := rfl
@[simp] theorem State.modCore_out (c : CoreId) (f : CoreSt → CoreSt) : (s.modCore c f).out = s.out := rfl
@[simp] theorem State.modCore_draws (c : CoreId) (f : CoreSt → CoreSt) : (s.modCore c f).draws = s.draws := rfl
@[simp] theorem State.modCore_pending (c : CoreId) (f : CoreSt → CoreSt) : (s.modCore c f).pending = s.pending := rfl

/-! modSq c f -/

@[simp] theorem State.modSq_part (c : CoreId) (f : Sq → Sq) : (s.modSq c f).part = s.part := rfl
@[simp] theorem State.modSq_tier (c : CoreId) (f : Sq → Sq) : (s.modSq c f).tier = s.tier := rfl
@[simp] theorem State.modSq_pageMap (c : CoreId) (f : Sq → Sq) : (s.modSq c f).pageMap = s.pageMap := rfl
@[simp] theorem State.modSq_sqStore (c : CoreId) (f : Sq → Sq) : (s.modSq c f).sqStore = s.sqStore := rfl
@[simp] theorem State.modSq_tm (c : CoreId) (f : Sq → Sq) : (s.modSq c f).tm = s.tm := rfl
@[simp] theorem State.modSq_tgs (c : CoreId) (f : Sq → Sq) : (s.modSq c f).tgs = s.tgs := rfl
@[simp] theorem State.modSq_saddleQ (c : CoreId) (f : Sq → Sq) : (s.modSq c f).saddleQ = s.saddleQ := rfl
@[simp] theorem State.modSq_pn (c : CoreId) (f : Sq → Sq) : (s.modSq c f).pn = s.pn := rfl
@[simp] theorem State.modSq_fi (c : CoreId) (f : Sq → Sq) : (s.modSq c f).fi = s.fi := rfl
@[simp] theorem State.modSq_hp (c : CoreId) (f : Sq → Sq) : (s.modSq c f).hp = s.hp := rfl
@[simp] theorem State.modSq_ws (c : CoreId) (f : Sq → Sq) : (s.modSq c f).ws = s.ws := rfl
@[simp] theorem State.modSq_prog (c : CoreId) (f : Sq → Sq) : (s.modSq c f).prog = s.prog := rfl
@[simp] theorem State.modSq_fsvc (c : CoreId) (f : Sq → Sq) : (s.modSq c f).fsvc = s.fsvc := rfl
@[simp] theorem State.modSq_cu (c : CoreId) (f : Sq → Sq) : (s.modSq c f).cu = s.cu := rfl
@[simp] theorem State.modSq_ck (c : CoreId) (f : Sq → Sq) : (s.modSq c f).ck = s.ck := rfl
@[simp] theorem State.modSq_ms (c : CoreId) (f : Sq → Sq) : (s.modSq c f).ms = s.ms := rfl
@[simp] theorem State.modSq_fprint (c : CoreId) (f : Sq → Sq) : (s.modSq c f).fprint = s.fprint := rfl
@[simp] theorem State.modSq_reinLimit (c : CoreId) (f : Sq → Sq) : (s.modSq c f).reinLimit = s.reinLimit := rfl
@[simp] theorem State.modSq_sealed (c : CoreId) (f : Sq → Sq) : (s.modSq c f).sealed = s.sealed := rfl
@[simp] theorem State.modSq_svc (c : CoreId) (f : Sq → Sq) : (s.modSq c f).svc = s.svc := rfl
@[simp] theorem State.modSq_slot (c : CoreId) (f : Sq → Sq) : (s.modSq c f).slot = s.slot := rfl
@[simp] theorem State.modSq_pinc (c : CoreId) (f : Sq → Sq) : (s.modSq c f).pinc = s.pinc := rfl
@[simp] theorem State.modSq_errs (c : CoreId) (f : Sq → Sq) : (s.modSq c f).errs = s.errs := rfl
@[simp] theorem State.modSq_coreFaults (c : CoreId) (f : Sq → Sq) : (s.modSq c f).coreFaults = s.coreFaults := rfl
@[simp] theorem State.modSq_net (c : CoreId) (f : Sq → Sq) : (s.modSq c f).net = s.net := rfl
@[simp] theorem State.modSq_out (c : CoreId) (f : Sq → Sq) : (s.modSq c f).out = s.out := rfl
@[simp] theorem State.modSq_draws (c : CoreId) (f : Sq → Sq) : (s.modSq c f).draws = s.draws := rfl
@[simp] theorem State.modSq_pending (c : CoreId) (f : Sq → Sq) : (s.modSq c f).pending = s.pending := rfl

/-! modMe c f -/

@[simp] theorem State.modMe_part (c : CoreId) (f : Me → Me) : (s.modMe c f).part = s.part := rfl
@[simp] theorem State.modMe_tier (c : CoreId) (f : Me → Me) : (s.modMe c f).tier = s.tier := rfl
@[simp] theorem State.modMe_pageMap (c : CoreId) (f : Me → Me) : (s.modMe c f).pageMap = s.pageMap := rfl
@[simp] theorem State.modMe_sqStore (c : CoreId) (f : Me → Me) : (s.modMe c f).sqStore = s.sqStore := rfl
@[simp] theorem State.modMe_tm (c : CoreId) (f : Me → Me) : (s.modMe c f).tm = s.tm := rfl
@[simp] theorem State.modMe_tgs (c : CoreId) (f : Me → Me) : (s.modMe c f).tgs = s.tgs := rfl
@[simp] theorem State.modMe_saddleQ (c : CoreId) (f : Me → Me) : (s.modMe c f).saddleQ = s.saddleQ := rfl
@[simp] theorem State.modMe_pn (c : CoreId) (f : Me → Me) : (s.modMe c f).pn = s.pn := rfl
@[simp] theorem State.modMe_fi (c : CoreId) (f : Me → Me) : (s.modMe c f).fi = s.fi := rfl
@[simp] theorem State.modMe_hp (c : CoreId) (f : Me → Me) : (s.modMe c f).hp = s.hp := rfl
@[simp] theorem State.modMe_ws (c : CoreId) (f : Me → Me) : (s.modMe c f).ws = s.ws := rfl
@[simp] theorem State.modMe_prog (c : CoreId) (f : Me → Me) : (s.modMe c f).prog = s.prog := rfl
@[simp] theorem State.modMe_fsvc (c : CoreId) (f : Me → Me) : (s.modMe c f).fsvc = s.fsvc := rfl
@[simp] theorem State.modMe_cu (c : CoreId) (f : Me → Me) : (s.modMe c f).cu = s.cu := rfl
@[simp] theorem State.modMe_ck (c : CoreId) (f : Me → Me) : (s.modMe c f).ck = s.ck := rfl
@[simp] theorem State.modMe_ms (c : CoreId) (f : Me → Me) : (s.modMe c f).ms = s.ms := rfl
@[simp] theorem State.modMe_fprint (c : CoreId) (f : Me → Me) : (s.modMe c f).fprint = s.fprint := rfl
@[simp] theorem State.modMe_reinLimit (c : CoreId) (f : Me → Me) : (s.modMe c f).reinLimit = s.reinLimit := rfl
@[simp] theorem State.modMe_sealed (c : CoreId) (f : Me → Me) : (s.modMe c f).sealed = s.sealed := rfl
@[simp] theorem State.modMe_svc (c : CoreId) (f : Me → Me) : (s.modMe c f).svc = s.svc := rfl
@[simp] theorem State.modMe_slot (c : CoreId) (f : Me → Me) : (s.modMe c f).slot = s.slot := rfl
@[simp] theorem State.modMe_pinc (c : CoreId) (f : Me → Me) : (s.modMe c f).pinc = s.pinc := rfl
@[simp] theorem State.modMe_errs (c : CoreId) (f : Me → Me) : (s.modMe c f).errs = s.errs := rfl
@[simp] theorem State.modMe_coreFaults (c : CoreId) (f : Me → Me) : (s.modMe c f).coreFaults = s.coreFaults := rfl
@[simp] theorem State.modMe_net (c : CoreId) (f : Me → Me) : (s.modMe c f).net = s.net := rfl
@[simp] theorem State.modMe_out (c : CoreId) (f : Me → Me) : (s.modMe c f).out = s.out := rfl
@[simp] theorem State.modMe_draws (c : CoreId) (f : Me → Me) : (s.modMe c f).draws = s.draws := rfl
@[simp] theorem State.modMe_pending (c : CoreId) (f : Me → Me) : (s.modMe c f).pending = s.pending := rfl

/-! modVe c f -/

@[simp] theorem State.modVe_part (c : CoreId) (f : Ve → Ve) : (s.modVe c f).part = s.part := rfl
@[simp] theorem State.modVe_tier (c : CoreId) (f : Ve → Ve) : (s.modVe c f).tier = s.tier := rfl
@[simp] theorem State.modVe_pageMap (c : CoreId) (f : Ve → Ve) : (s.modVe c f).pageMap = s.pageMap := rfl
@[simp] theorem State.modVe_sqStore (c : CoreId) (f : Ve → Ve) : (s.modVe c f).sqStore = s.sqStore := rfl
@[simp] theorem State.modVe_tm (c : CoreId) (f : Ve → Ve) : (s.modVe c f).tm = s.tm := rfl
@[simp] theorem State.modVe_tgs (c : CoreId) (f : Ve → Ve) : (s.modVe c f).tgs = s.tgs := rfl
@[simp] theorem State.modVe_saddleQ (c : CoreId) (f : Ve → Ve) : (s.modVe c f).saddleQ = s.saddleQ := rfl
@[simp] theorem State.modVe_pn (c : CoreId) (f : Ve → Ve) : (s.modVe c f).pn = s.pn := rfl
@[simp] theorem State.modVe_fi (c : CoreId) (f : Ve → Ve) : (s.modVe c f).fi = s.fi := rfl
@[simp] theorem State.modVe_hp (c : CoreId) (f : Ve → Ve) : (s.modVe c f).hp = s.hp := rfl
@[simp] theorem State.modVe_ws (c : CoreId) (f : Ve → Ve) : (s.modVe c f).ws = s.ws := rfl
@[simp] theorem State.modVe_prog (c : CoreId) (f : Ve → Ve) : (s.modVe c f).prog = s.prog := rfl
@[simp] theorem State.modVe_fsvc (c : CoreId) (f : Ve → Ve) : (s.modVe c f).fsvc = s.fsvc := rfl
@[simp] theorem State.modVe_cu (c : CoreId) (f : Ve → Ve) : (s.modVe c f).cu = s.cu := rfl
@[simp] theorem State.modVe_ck (c : CoreId) (f : Ve → Ve) : (s.modVe c f).ck = s.ck := rfl
@[simp] theorem State.modVe_ms (c : CoreId) (f : Ve → Ve) : (s.modVe c f).ms = s.ms := rfl
@[simp] theorem State.modVe_fprint (c : CoreId) (f : Ve → Ve) : (s.modVe c f).fprint = s.fprint := rfl
@[simp] theorem State.modVe_reinLimit (c : CoreId) (f : Ve → Ve) : (s.modVe c f).reinLimit = s.reinLimit := rfl
@[simp] theorem State.modVe_sealed (c : CoreId) (f : Ve → Ve) : (s.modVe c f).sealed = s.sealed := rfl
@[simp] theorem State.modVe_svc (c : CoreId) (f : Ve → Ve) : (s.modVe c f).svc = s.svc := rfl
@[simp] theorem State.modVe_slot (c : CoreId) (f : Ve → Ve) : (s.modVe c f).slot = s.slot := rfl
@[simp] theorem State.modVe_pinc (c : CoreId) (f : Ve → Ve) : (s.modVe c f).pinc = s.pinc := rfl
@[simp] theorem State.modVe_errs (c : CoreId) (f : Ve → Ve) : (s.modVe c f).errs = s.errs := rfl
@[simp] theorem State.modVe_coreFaults (c : CoreId) (f : Ve → Ve) : (s.modVe c f).coreFaults = s.coreFaults := rfl
@[simp] theorem State.modVe_net (c : CoreId) (f : Ve → Ve) : (s.modVe c f).net = s.net := rfl
@[simp] theorem State.modVe_out (c : CoreId) (f : Ve → Ve) : (s.modVe c f).out = s.out := rfl
@[simp] theorem State.modVe_draws (c : CoreId) (f : Ve → Ve) : (s.modVe c f).draws = s.draws := rfl
@[simp] theorem State.modVe_pending (c : CoreId) (f : Ve → Ve) : (s.modVe c f).pending = s.pending := rfl

/-! modCm c f -/

@[simp] theorem State.modCm_part (c : CoreId) (f : Cm → Cm) : (s.modCm c f).part = s.part := rfl
@[simp] theorem State.modCm_tier (c : CoreId) (f : Cm → Cm) : (s.modCm c f).tier = s.tier := rfl
@[simp] theorem State.modCm_pageMap (c : CoreId) (f : Cm → Cm) : (s.modCm c f).pageMap = s.pageMap := rfl
@[simp] theorem State.modCm_sqStore (c : CoreId) (f : Cm → Cm) : (s.modCm c f).sqStore = s.sqStore := rfl
@[simp] theorem State.modCm_tm (c : CoreId) (f : Cm → Cm) : (s.modCm c f).tm = s.tm := rfl
@[simp] theorem State.modCm_tgs (c : CoreId) (f : Cm → Cm) : (s.modCm c f).tgs = s.tgs := rfl
@[simp] theorem State.modCm_saddleQ (c : CoreId) (f : Cm → Cm) : (s.modCm c f).saddleQ = s.saddleQ := rfl
@[simp] theorem State.modCm_pn (c : CoreId) (f : Cm → Cm) : (s.modCm c f).pn = s.pn := rfl
@[simp] theorem State.modCm_fi (c : CoreId) (f : Cm → Cm) : (s.modCm c f).fi = s.fi := rfl
@[simp] theorem State.modCm_hp (c : CoreId) (f : Cm → Cm) : (s.modCm c f).hp = s.hp := rfl
@[simp] theorem State.modCm_ws (c : CoreId) (f : Cm → Cm) : (s.modCm c f).ws = s.ws := rfl
@[simp] theorem State.modCm_prog (c : CoreId) (f : Cm → Cm) : (s.modCm c f).prog = s.prog := rfl
@[simp] theorem State.modCm_fsvc (c : CoreId) (f : Cm → Cm) : (s.modCm c f).fsvc = s.fsvc := rfl
@[simp] theorem State.modCm_cu (c : CoreId) (f : Cm → Cm) : (s.modCm c f).cu = s.cu := rfl
@[simp] theorem State.modCm_ck (c : CoreId) (f : Cm → Cm) : (s.modCm c f).ck = s.ck := rfl
@[simp] theorem State.modCm_ms (c : CoreId) (f : Cm → Cm) : (s.modCm c f).ms = s.ms := rfl
@[simp] theorem State.modCm_fprint (c : CoreId) (f : Cm → Cm) : (s.modCm c f).fprint = s.fprint := rfl
@[simp] theorem State.modCm_reinLimit (c : CoreId) (f : Cm → Cm) : (s.modCm c f).reinLimit = s.reinLimit := rfl
@[simp] theorem State.modCm_sealed (c : CoreId) (f : Cm → Cm) : (s.modCm c f).sealed = s.sealed := rfl
@[simp] theorem State.modCm_svc (c : CoreId) (f : Cm → Cm) : (s.modCm c f).svc = s.svc := rfl
@[simp] theorem State.modCm_slot (c : CoreId) (f : Cm → Cm) : (s.modCm c f).slot = s.slot := rfl
@[simp] theorem State.modCm_pinc (c : CoreId) (f : Cm → Cm) : (s.modCm c f).pinc = s.pinc := rfl
@[simp] theorem State.modCm_errs (c : CoreId) (f : Cm → Cm) : (s.modCm c f).errs = s.errs := rfl
@[simp] theorem State.modCm_coreFaults (c : CoreId) (f : Cm → Cm) : (s.modCm c f).coreFaults = s.coreFaults := rfl
@[simp] theorem State.modCm_net (c : CoreId) (f : Cm → Cm) : (s.modCm c f).net = s.net := rfl
@[simp] theorem State.modCm_out (c : CoreId) (f : Cm → Cm) : (s.modCm c f).out = s.out := rfl
@[simp] theorem State.modCm_draws (c : CoreId) (f : Cm → Cm) : (s.modCm c f).draws = s.draws := rfl
@[simp] theorem State.modCm_pending (c : CoreId) (f : Cm → Cm) : (s.modCm c f).pending = s.pending := rfl

/-! modDma c f -/

@[simp] theorem State.modDma_part (c : CoreId) (f : Dma → Dma) : (s.modDma c f).part = s.part := rfl
@[simp] theorem State.modDma_tier (c : CoreId) (f : Dma → Dma) : (s.modDma c f).tier = s.tier := rfl
@[simp] theorem State.modDma_pageMap (c : CoreId) (f : Dma → Dma) : (s.modDma c f).pageMap = s.pageMap := rfl
@[simp] theorem State.modDma_sqStore (c : CoreId) (f : Dma → Dma) : (s.modDma c f).sqStore = s.sqStore := rfl
@[simp] theorem State.modDma_tm (c : CoreId) (f : Dma → Dma) : (s.modDma c f).tm = s.tm := rfl
@[simp] theorem State.modDma_tgs (c : CoreId) (f : Dma → Dma) : (s.modDma c f).tgs = s.tgs := rfl
@[simp] theorem State.modDma_saddleQ (c : CoreId) (f : Dma → Dma) : (s.modDma c f).saddleQ = s.saddleQ := rfl
@[simp] theorem State.modDma_pn (c : CoreId) (f : Dma → Dma) : (s.modDma c f).pn = s.pn := rfl
@[simp] theorem State.modDma_fi (c : CoreId) (f : Dma → Dma) : (s.modDma c f).fi = s.fi := rfl
@[simp] theorem State.modDma_hp (c : CoreId) (f : Dma → Dma) : (s.modDma c f).hp = s.hp := rfl
@[simp] theorem State.modDma_ws (c : CoreId) (f : Dma → Dma) : (s.modDma c f).ws = s.ws := rfl
@[simp] theorem State.modDma_prog (c : CoreId) (f : Dma → Dma) : (s.modDma c f).prog = s.prog := rfl
@[simp] theorem State.modDma_fsvc (c : CoreId) (f : Dma → Dma) : (s.modDma c f).fsvc = s.fsvc := rfl
@[simp] theorem State.modDma_cu (c : CoreId) (f : Dma → Dma) : (s.modDma c f).cu = s.cu := rfl
@[simp] theorem State.modDma_ck (c : CoreId) (f : Dma → Dma) : (s.modDma c f).ck = s.ck := rfl
@[simp] theorem State.modDma_ms (c : CoreId) (f : Dma → Dma) : (s.modDma c f).ms = s.ms := rfl
@[simp] theorem State.modDma_fprint (c : CoreId) (f : Dma → Dma) : (s.modDma c f).fprint = s.fprint := rfl
@[simp] theorem State.modDma_reinLimit (c : CoreId) (f : Dma → Dma) : (s.modDma c f).reinLimit = s.reinLimit := rfl
@[simp] theorem State.modDma_sealed (c : CoreId) (f : Dma → Dma) : (s.modDma c f).sealed = s.sealed := rfl
@[simp] theorem State.modDma_svc (c : CoreId) (f : Dma → Dma) : (s.modDma c f).svc = s.svc := rfl
@[simp] theorem State.modDma_slot (c : CoreId) (f : Dma → Dma) : (s.modDma c f).slot = s.slot := rfl
@[simp] theorem State.modDma_pinc (c : CoreId) (f : Dma → Dma) : (s.modDma c f).pinc = s.pinc := rfl
@[simp] theorem State.modDma_errs (c : CoreId) (f : Dma → Dma) : (s.modDma c f).errs = s.errs := rfl
@[simp] theorem State.modDma_coreFaults (c : CoreId) (f : Dma → Dma) : (s.modDma c f).coreFaults = s.coreFaults := rfl
@[simp] theorem State.modDma_net (c : CoreId) (f : Dma → Dma) : (s.modDma c f).net = s.net := rfl
@[simp] theorem State.modDma_out (c : CoreId) (f : Dma → Dma) : (s.modDma c f).out = s.out := rfl
@[simp] theorem State.modDma_draws (c : CoreId) (f : Dma → Dma) : (s.modDma c f).draws = s.draws := rfl
@[simp] theorem State.modDma_pending (c : CoreId) (f : Dma → Dma) : (s.modDma c f).pending = s.pending := rfl

/-! modCq c f -/

@[simp] theorem State.modCq_part (c : CoreId) (f : Cq → Cq) : (s.modCq c f).part = s.part := rfl
@[simp] theorem State.modCq_tier (c : CoreId) (f : Cq → Cq) : (s.modCq c f).tier = s.tier := rfl
@[simp] theorem State.modCq_pageMap (c : CoreId) (f : Cq → Cq) : (s.modCq c f).pageMap = s.pageMap := rfl
@[simp] theorem State.modCq_sqStore (c : CoreId) (f : Cq → Cq) : (s.modCq c f).sqStore = s.sqStore := rfl
@[simp] theorem State.modCq_tm (c : CoreId) (f : Cq → Cq) : (s.modCq c f).tm = s.tm := rfl
@[simp] theorem State.modCq_tgs (c : CoreId) (f : Cq → Cq) : (s.modCq c f).tgs = s.tgs := rfl
@[simp] theorem State.modCq_saddleQ (c : CoreId) (f : Cq → Cq) : (s.modCq c f).saddleQ = s.saddleQ := rfl
@[simp] theorem State.modCq_pn (c : CoreId) (f : Cq → Cq) : (s.modCq c f).pn = s.pn := rfl
@[simp] theorem State.modCq_fi (c : CoreId) (f : Cq → Cq) : (s.modCq c f).fi = s.fi := rfl
@[simp] theorem State.modCq_hp (c : CoreId) (f : Cq → Cq) : (s.modCq c f).hp = s.hp := rfl
@[simp] theorem State.modCq_ws (c : CoreId) (f : Cq → Cq) : (s.modCq c f).ws = s.ws := rfl
@[simp] theorem State.modCq_prog (c : CoreId) (f : Cq → Cq) : (s.modCq c f).prog = s.prog := rfl
@[simp] theorem State.modCq_fsvc (c : CoreId) (f : Cq → Cq) : (s.modCq c f).fsvc = s.fsvc := rfl
@[simp] theorem State.modCq_cu (c : CoreId) (f : Cq → Cq) : (s.modCq c f).cu = s.cu := rfl
@[simp] theorem State.modCq_ck (c : CoreId) (f : Cq → Cq) : (s.modCq c f).ck = s.ck := rfl
@[simp] theorem State.modCq_ms (c : CoreId) (f : Cq → Cq) : (s.modCq c f).ms = s.ms := rfl
@[simp] theorem State.modCq_fprint (c : CoreId) (f : Cq → Cq) : (s.modCq c f).fprint = s.fprint := rfl
@[simp] theorem State.modCq_reinLimit (c : CoreId) (f : Cq → Cq) : (s.modCq c f).reinLimit = s.reinLimit := rfl
@[simp] theorem State.modCq_sealed (c : CoreId) (f : Cq → Cq) : (s.modCq c f).sealed = s.sealed := rfl
@[simp] theorem State.modCq_svc (c : CoreId) (f : Cq → Cq) : (s.modCq c f).svc = s.svc := rfl
@[simp] theorem State.modCq_slot (c : CoreId) (f : Cq → Cq) : (s.modCq c f).slot = s.slot := rfl
@[simp] theorem State.modCq_pinc (c : CoreId) (f : Cq → Cq) : (s.modCq c f).pinc = s.pinc := rfl
@[simp] theorem State.modCq_errs (c : CoreId) (f : Cq → Cq) : (s.modCq c f).errs = s.errs := rfl
@[simp] theorem State.modCq_coreFaults (c : CoreId) (f : Cq → Cq) : (s.modCq c f).coreFaults = s.coreFaults := rfl
@[simp] theorem State.modCq_net (c : CoreId) (f : Cq → Cq) : (s.modCq c f).net = s.net := rfl
@[simp] theorem State.modCq_out (c : CoreId) (f : Cq → Cq) : (s.modCq c f).out = s.out := rfl
@[simp] theorem State.modCq_draws (c : CoreId) (f : Cq → Cq) : (s.modCq c f).draws = s.draws := rfl
@[simp] theorem State.modCq_pending (c : CoreId) (f : Cq → Cq) : (s.modCq c f).pending = s.pending := rfl

/-! cmWrite c a bs -/

@[simp] theorem State.cmWrite_part (c : CoreId) (a : Nat) (bs : List Byte) : (s.cmWrite c a bs).part = s.part := rfl
@[simp] theorem State.cmWrite_tier (c : CoreId) (a : Nat) (bs : List Byte) : (s.cmWrite c a bs).tier = s.tier := rfl
@[simp] theorem State.cmWrite_pageMap (c : CoreId) (a : Nat) (bs : List Byte) : (s.cmWrite c a bs).pageMap = s.pageMap := rfl
@[simp] theorem State.cmWrite_sqStore (c : CoreId) (a : Nat) (bs : List Byte) : (s.cmWrite c a bs).sqStore = s.sqStore := rfl
@[simp] theorem State.cmWrite_tm (c : CoreId) (a : Nat) (bs : List Byte) : (s.cmWrite c a bs).tm = s.tm := rfl
@[simp] theorem State.cmWrite_tgs (c : CoreId) (a : Nat) (bs : List Byte) : (s.cmWrite c a bs).tgs = s.tgs := rfl
@[simp] theorem State.cmWrite_saddleQ (c : CoreId) (a : Nat) (bs : List Byte) : (s.cmWrite c a bs).saddleQ = s.saddleQ := rfl
@[simp] theorem State.cmWrite_pn (c : CoreId) (a : Nat) (bs : List Byte) : (s.cmWrite c a bs).pn = s.pn := rfl
@[simp] theorem State.cmWrite_fi (c : CoreId) (a : Nat) (bs : List Byte) : (s.cmWrite c a bs).fi = s.fi := rfl
@[simp] theorem State.cmWrite_hp (c : CoreId) (a : Nat) (bs : List Byte) : (s.cmWrite c a bs).hp = s.hp := rfl
@[simp] theorem State.cmWrite_ws (c : CoreId) (a : Nat) (bs : List Byte) : (s.cmWrite c a bs).ws = s.ws := rfl
@[simp] theorem State.cmWrite_prog (c : CoreId) (a : Nat) (bs : List Byte) : (s.cmWrite c a bs).prog = s.prog := rfl
@[simp] theorem State.cmWrite_fsvc (c : CoreId) (a : Nat) (bs : List Byte) : (s.cmWrite c a bs).fsvc = s.fsvc := rfl
@[simp] theorem State.cmWrite_cu (c : CoreId) (a : Nat) (bs : List Byte) : (s.cmWrite c a bs).cu = s.cu := rfl
@[simp] theorem State.cmWrite_ck (c : CoreId) (a : Nat) (bs : List Byte) : (s.cmWrite c a bs).ck = s.ck := rfl
@[simp] theorem State.cmWrite_ms (c : CoreId) (a : Nat) (bs : List Byte) : (s.cmWrite c a bs).ms = s.ms := rfl
@[simp] theorem State.cmWrite_fprint (c : CoreId) (a : Nat) (bs : List Byte) : (s.cmWrite c a bs).fprint = s.fprint := rfl
@[simp] theorem State.cmWrite_reinLimit (c : CoreId) (a : Nat) (bs : List Byte) : (s.cmWrite c a bs).reinLimit = s.reinLimit := rfl
@[simp] theorem State.cmWrite_sealed (c : CoreId) (a : Nat) (bs : List Byte) : (s.cmWrite c a bs).sealed = s.sealed := rfl
@[simp] theorem State.cmWrite_svc (c : CoreId) (a : Nat) (bs : List Byte) : (s.cmWrite c a bs).svc = s.svc := rfl
@[simp] theorem State.cmWrite_slot (c : CoreId) (a : Nat) (bs : List Byte) : (s.cmWrite c a bs).slot = s.slot := rfl
@[simp] theorem State.cmWrite_pinc (c : CoreId) (a : Nat) (bs : List Byte) : (s.cmWrite c a bs).pinc = s.pinc := rfl
@[simp] theorem State.cmWrite_errs (c : CoreId) (a : Nat) (bs : List Byte) : (s.cmWrite c a bs).errs = s.errs := rfl
@[simp] theorem State.cmWrite_coreFaults (c : CoreId) (a : Nat) (bs : List Byte) : (s.cmWrite c a bs).coreFaults = s.coreFaults := rfl
@[simp] theorem State.cmWrite_net (c : CoreId) (a : Nat) (bs : List Byte) : (s.cmWrite c a bs).net = s.net := rfl
@[simp] theorem State.cmWrite_out (c : CoreId) (a : Nat) (bs : List Byte) : (s.cmWrite c a bs).out = s.out := rfl
@[simp] theorem State.cmWrite_draws (c : CoreId) (a : Nat) (bs : List Byte) : (s.cmWrite c a bs).draws = s.draws := rfl
@[simp] theorem State.cmWrite_pending (c : CoreId) (a : Nat) (bs : List Byte) : (s.cmWrite c a bs).pending = s.pending := rfl

/-! writeReg c n v lat -/

@[simp] theorem State.writeReg_part (c : CoreId) (n : Nat) (v : Word) (lat : Nat) : (s.writeReg c n v lat).part = s.part := rfl
@[simp] theorem State.writeReg_tier (c : CoreId) (n : Nat) (v : Word) (lat : Nat) : (s.writeReg c n v lat).tier = s.tier := rfl
@[simp] theorem State.writeReg_pageMap (c : CoreId) (n : Nat) (v : Word) (lat : Nat) : (s.writeReg c n v lat).pageMap = s.pageMap := rfl
@[simp] theorem State.writeReg_sqStore (c : CoreId) (n : Nat) (v : Word) (lat : Nat) : (s.writeReg c n v lat).sqStore = s.sqStore := rfl
@[simp] theorem State.writeReg_tm (c : CoreId) (n : Nat) (v : Word) (lat : Nat) : (s.writeReg c n v lat).tm = s.tm := rfl
@[simp] theorem State.writeReg_tgs (c : CoreId) (n : Nat) (v : Word) (lat : Nat) : (s.writeReg c n v lat).tgs = s.tgs := rfl
@[simp] theorem State.writeReg_saddleQ (c : CoreId) (n : Nat) (v : Word) (lat : Nat) : (s.writeReg c n v lat).saddleQ = s.saddleQ := rfl
@[simp] theorem State.writeReg_pn (c : CoreId) (n : Nat) (v : Word) (lat : Nat) : (s.writeReg c n v lat).pn = s.pn := rfl
@[simp] theorem State.writeReg_fi (c : CoreId) (n : Nat) (v : Word) (lat : Nat) : (s.writeReg c n v lat).fi = s.fi := rfl
@[simp] theorem State.writeReg_hp (c : CoreId) (n : Nat) (v : Word) (lat : Nat) : (s.writeReg c n v lat).hp = s.hp := rfl
@[simp] theorem State.writeReg_ws (c : CoreId) (n : Nat) (v : Word) (lat : Nat) : (s.writeReg c n v lat).ws = s.ws := rfl
@[simp] theorem State.writeReg_prog (c : CoreId) (n : Nat) (v : Word) (lat : Nat) : (s.writeReg c n v lat).prog = s.prog := rfl
@[simp] theorem State.writeReg_fsvc (c : CoreId) (n : Nat) (v : Word) (lat : Nat) : (s.writeReg c n v lat).fsvc = s.fsvc := rfl
@[simp] theorem State.writeReg_cu (c : CoreId) (n : Nat) (v : Word) (lat : Nat) : (s.writeReg c n v lat).cu = s.cu := rfl
@[simp] theorem State.writeReg_ck (c : CoreId) (n : Nat) (v : Word) (lat : Nat) : (s.writeReg c n v lat).ck = s.ck := rfl
@[simp] theorem State.writeReg_ms (c : CoreId) (n : Nat) (v : Word) (lat : Nat) : (s.writeReg c n v lat).ms = s.ms := rfl
@[simp] theorem State.writeReg_fprint (c : CoreId) (n : Nat) (v : Word) (lat : Nat) : (s.writeReg c n v lat).fprint = s.fprint := rfl
@[simp] theorem State.writeReg_reinLimit (c : CoreId) (n : Nat) (v : Word) (lat : Nat) : (s.writeReg c n v lat).reinLimit = s.reinLimit := rfl
@[simp] theorem State.writeReg_sealed (c : CoreId) (n : Nat) (v : Word) (lat : Nat) : (s.writeReg c n v lat).sealed = s.sealed := rfl
@[simp] theorem State.writeReg_svc (c : CoreId) (n : Nat) (v : Word) (lat : Nat) : (s.writeReg c n v lat).svc = s.svc := rfl
@[simp] theorem State.writeReg_slot (c : CoreId) (n : Nat) (v : Word) (lat : Nat) : (s.writeReg c n v lat).slot = s.slot := rfl
@[simp] theorem State.writeReg_pinc (c : CoreId) (n : Nat) (v : Word) (lat : Nat) : (s.writeReg c n v lat).pinc = s.pinc := rfl
@[simp] theorem State.writeReg_errs (c : CoreId) (n : Nat) (v : Word) (lat : Nat) : (s.writeReg c n v lat).errs = s.errs := rfl
@[simp] theorem State.writeReg_coreFaults (c : CoreId) (n : Nat) (v : Word) (lat : Nat) : (s.writeReg c n v lat).coreFaults = s.coreFaults := rfl
@[simp] theorem State.writeReg_net (c : CoreId) (n : Nat) (v : Word) (lat : Nat) : (s.writeReg c n v lat).net = s.net := rfl
@[simp] theorem State.writeReg_out (c : CoreId) (n : Nat) (v : Word) (lat : Nat) : (s.writeReg c n v lat).out = s.out := rfl
@[simp] theorem State.writeReg_draws (c : CoreId) (n : Nat) (v : Word) (lat : Nat) : (s.writeReg c n v lat).draws = s.draws := rfl
@[simp] theorem State.writeReg_pending (c : CoreId) (n : Nat) (v : Word) (lat : Nat) : (s.writeReg c n v lat).pending = s.pending := rfl

/-! emit o -/

@[simp] theorem State.emit_part (o : Out) : (s.emit o).part = s.part := rfl
@[simp] theorem State.emit_cores (o : Out) : (s.emit o).cores = s.cores := rfl
@[simp] theorem State.emit_tier (o : Out) : (s.emit o).tier = s.tier := rfl
@[simp] theorem State.emit_pageMap (o : Out) : (s.emit o).pageMap = s.pageMap := rfl
@[simp] theorem State.emit_sqStore (o : Out) : (s.emit o).sqStore = s.sqStore := rfl
@[simp] theorem State.emit_tm (o : Out) : (s.emit o).tm = s.tm := rfl
@[simp] theorem State.emit_tgs (o : Out) : (s.emit o).tgs = s.tgs := rfl
@[simp] theorem State.emit_saddleQ (o : Out) : (s.emit o).saddleQ = s.saddleQ := rfl
@[simp] theorem State.emit_pn (o : Out) : (s.emit o).pn = s.pn := rfl
@[simp] theorem State.emit_fi (o : Out) : (s.emit o).fi = s.fi := rfl
@[simp] theorem State.emit_hp (o : Out) : (s.emit o).hp = s.hp := rfl
@[simp] theorem State.emit_ws (o : Out) : (s.emit o).ws = s.ws := rfl
@[simp] theorem State.emit_prog (o : Out) : (s.emit o).prog = s.prog := rfl
@[simp] theorem State.emit_fsvc (o : Out) : (s.emit o).fsvc = s.fsvc := rfl
@[simp] theorem State.emit_cu (o : Out) : (s.emit o).cu = s.cu := rfl
@[simp] theorem State.emit_ck (o : Out) : (s.emit o).ck = s.ck := rfl
@[simp] theorem State.emit_ms (o : Out) : (s.emit o).ms = s.ms := rfl
@[simp] theorem State.emit_fprint (o : Out) : (s.emit o).fprint = s.fprint := rfl
@[simp] theorem State.emit_reinLimit (o : Out) : (s.emit o).reinLimit = s.reinLimit := rfl
@[simp] theorem State.emit_sealed (o : Out) : (s.emit o).sealed = s.sealed := rfl
@[simp] theorem State.emit_svc (o : Out) : (s.emit o).svc = s.svc := rfl
@[simp] theorem State.emit_slot (o : Out) : (s.emit o).slot = s.slot := rfl
@[simp] theorem State.emit_pinc (o : Out) : (s.emit o).pinc = s.pinc := rfl
@[simp] theorem State.emit_errs (o : Out) : (s.emit o).errs = s.errs := rfl
@[simp] theorem State.emit_coreFaults (o : Out) : (s.emit o).coreFaults = s.coreFaults := rfl
@[simp] theorem State.emit_net (o : Out) : (s.emit o).net = s.net := rfl
@[simp] theorem State.emit_draws (o : Out) : (s.emit o).draws = s.draws := rfl
@[simp] theorem State.emit_pending (o : Out) : (s.emit o).pending = s.pending := rfl

@[simp] theorem State.emit_out (o : Out) : (s.emit o).out = s.out ++ [o] := rfl

/-! report k b -/

@[simp] theorem State.report_part (k : Nat) (b : List Byte) : (s.report k b).part = s.part := rfl
@[simp] theorem State.report_cores (k : Nat) (b : List Byte) : (s.report k b).cores = s.cores := rfl
@[simp] theorem State.report_tier (k : Nat) (b : List Byte) : (s.report k b).tier = s.tier := rfl
@[simp] theorem State.report_pageMap (k : Nat) (b : List Byte) : (s.report k b).pageMap = s.pageMap := rfl
@[simp] theorem State.report_sqStore (k : Nat) (b : List Byte) : (s.report k b).sqStore = s.sqStore := rfl
@[simp] theorem State.report_tm (k : Nat) (b : List Byte) : (s.report k b).tm = s.tm := rfl
@[simp] theorem State.report_tgs (k : Nat) (b : List Byte) : (s.report k b).tgs = s.tgs := rfl
@[simp] theorem State.report_saddleQ (k : Nat) (b : List Byte) : (s.report k b).saddleQ = s.saddleQ := rfl
@[simp] theorem State.report_pn (k : Nat) (b : List Byte) : (s.report k b).pn = s.pn := rfl
@[simp] theorem State.report_fi (k : Nat) (b : List Byte) : (s.report k b).fi = s.fi := rfl
@[simp] theorem State.report_hp (k : Nat) (b : List Byte) : (s.report k b).hp = s.hp := rfl
@[simp] theorem State.report_ws (k : Nat) (b : List Byte) : (s.report k b).ws = s.ws := rfl
@[simp] theorem State.report_prog (k : Nat) (b : List Byte) : (s.report k b).prog = s.prog := rfl
@[simp] theorem State.report_fsvc (k : Nat) (b : List Byte) : (s.report k b).fsvc = s.fsvc := rfl
@[simp] theorem State.report_cu (k : Nat) (b : List Byte) : (s.report k b).cu = s.cu := rfl
@[simp] theorem State.report_ck (k : Nat) (b : List Byte) : (s.report k b).ck = s.ck := rfl
@[simp] theorem State.report_fprint (k : Nat) (b : List Byte) : (s.report k b).fprint = s.fprint := rfl
@[simp] theorem State.report_reinLimit (k : Nat) (b : List Byte) : (s.report k b).reinLimit = s.reinLimit := rfl
@[simp] theorem State.report_sealed (k : Nat) (b : List Byte) : (s.report k b).sealed = s.sealed := rfl
@[simp] theorem State.report_svc (k : Nat) (b : List Byte) : (s.report k b).svc = s.svc := rfl
@[simp] theorem State.report_slot (k : Nat) (b : List Byte) : (s.report k b).slot = s.slot := rfl
@[simp] theorem State.report_pinc (k : Nat) (b : List Byte) : (s.report k b).pinc = s.pinc := rfl
@[simp] theorem State.report_errs (k : Nat) (b : List Byte) : (s.report k b).errs = s.errs := rfl
@[simp] theorem State.report_coreFaults (k : Nat) (b : List Byte) : (s.report k b).coreFaults = s.coreFaults := rfl
@[simp] theorem State.report_net (k : Nat) (b : List Byte) : (s.report k b).net = s.net := rfl
@[simp] theorem State.report_draws (k : Nat) (b : List Byte) : (s.report k b).draws = s.draws := rfl
@[simp] theorem State.report_pending (k : Nat) (b : List Byte) : (s.report k b).pending = s.pending := rfl

@[simp] theorem State.report_out (k : Nat) (b : List Byte) : (s.report k b).out = s.out ++ [.kdmp k s.ms.reports b] := rfl

/-! msFault code -/

@[simp] theorem State.msFault_part (code : Nat) : (s.msFault code).part = s.part := rfl
@[simp] theorem State.msFault_cores (code : Nat) : (s.msFault code).cores = s.cores := rfl
@[simp] theorem State.msFault_tier (code : Nat) : (s.msFault code).tier = s.tier := rfl
@[simp] theorem State.msFault_pageMap (code : Nat) : (s.msFault code).pageMap = s.pageMap := rfl
@[simp] theorem State.msFault_sqStore (code : Nat) : (s.msFault code).sqStore = s.sqStore := rfl
@[simp] theorem State.msFault_tm (code : Nat) : (s.msFault code).tm = s.tm := rfl
@[simp] theorem State.msFault_tgs (code : Nat) : (s.msFault code).tgs = s.tgs := rfl
@[simp] theorem State.msFault_saddleQ (code : Nat) : (s.msFault code).saddleQ = s.saddleQ := rfl
@[simp] theorem State.msFault_pn (code : Nat) : (s.msFault code).pn = s.pn := rfl
@[simp] theorem State.msFault_fi (code : Nat) : (s.msFault code).fi = s.fi := rfl
@[simp] theorem State.msFault_hp (code : Nat) : (s.msFault code).hp = s.hp := rfl
@[simp] theorem State.msFault_ws (code : Nat) : (s.msFault code).ws = s.ws := rfl
@[simp] theorem State.msFault_prog (code : Nat) : (s.msFault code).prog = s.prog := rfl
@[simp] theorem State.msFault_fsvc (code : Nat) : (s.msFault code).fsvc = s.fsvc := rfl
@[simp] theorem State.msFault_cu (code : Nat) : (s.msFault code).cu = s.cu := rfl
@[simp] theorem State.msFault_ck (code : Nat) : (s.msFault code).ck = s.ck := rfl
@[simp] theorem State.msFault_fprint (code : Nat) : (s.msFault code).fprint = s.fprint := rfl
@[simp] theorem State.msFault_reinLimit (code : Nat) : (s.msFault code).reinLimit = s.reinLimit := rfl
@[simp] theorem State.msFault_sealed (code : Nat) : (s.msFault code).sealed = s.sealed := rfl
@[simp] theorem State.msFault_svc (code : Nat) : (s.msFault code).svc = s.svc := rfl
@[simp] theorem State.msFault_slot (code : Nat) : (s.msFault code).slot = s.slot := rfl
@[simp] theorem State.msFault_pinc (code : Nat) : (s.msFault code).pinc = s.pinc := rfl
@[simp] theorem State.msFault_errs (code : Nat) : (s.msFault code).errs = s.errs := rfl
@[simp] theorem State.msFault_coreFaults (code : Nat) : (s.msFault code).coreFaults = s.coreFaults := rfl
@[simp] theorem State.msFault_net (code : Nat) : (s.msFault code).net = s.net := rfl
@[simp] theorem State.msFault_out (code : Nat) : (s.msFault code).out = s.out := rfl
@[simp] theorem State.msFault_draws (code : Nat) : (s.msFault code).draws = s.draws := rfl
@[simp] theorem State.msFault_pending (code : Nat) : (s.msFault code).pending = s.pending := rfl

/-! modPort p f -/

@[simp] theorem State.modPort_part (p : Nat) (f : FiPort → FiPort) : (s.modPort p f).part = s.part := rfl
@[simp] theorem State.modPort_cores (p : Nat) (f : FiPort → FiPort) : (s.modPort p f).cores = s.cores := rfl
@[simp] theorem State.modPort_tier (p : Nat) (f : FiPort → FiPort) : (s.modPort p f).tier = s.tier := rfl
@[simp] theorem State.modPort_pageMap (p : Nat) (f : FiPort → FiPort) : (s.modPort p f).pageMap = s.pageMap := rfl
@[simp] theorem State.modPort_sqStore (p : Nat) (f : FiPort → FiPort) : (s.modPort p f).sqStore = s.sqStore := rfl
@[simp] theorem State.modPort_tm (p : Nat) (f : FiPort → FiPort) : (s.modPort p f).tm = s.tm := rfl
@[simp] theorem State.modPort_tgs (p : Nat) (f : FiPort → FiPort) : (s.modPort p f).tgs = s.tgs := rfl
@[simp] theorem State.modPort_saddleQ (p : Nat) (f : FiPort → FiPort) : (s.modPort p f).saddleQ = s.saddleQ := rfl
@[simp] theorem State.modPort_pn (p : Nat) (f : FiPort → FiPort) : (s.modPort p f).pn = s.pn := rfl
@[simp] theorem State.modPort_hp (p : Nat) (f : FiPort → FiPort) : (s.modPort p f).hp = s.hp := rfl
@[simp] theorem State.modPort_ws (p : Nat) (f : FiPort → FiPort) : (s.modPort p f).ws = s.ws := rfl
@[simp] theorem State.modPort_prog (p : Nat) (f : FiPort → FiPort) : (s.modPort p f).prog = s.prog := rfl
@[simp] theorem State.modPort_fsvc (p : Nat) (f : FiPort → FiPort) : (s.modPort p f).fsvc = s.fsvc := rfl
@[simp] theorem State.modPort_cu (p : Nat) (f : FiPort → FiPort) : (s.modPort p f).cu = s.cu := rfl
@[simp] theorem State.modPort_ck (p : Nat) (f : FiPort → FiPort) : (s.modPort p f).ck = s.ck := rfl
@[simp] theorem State.modPort_ms (p : Nat) (f : FiPort → FiPort) : (s.modPort p f).ms = s.ms := rfl
@[simp] theorem State.modPort_fprint (p : Nat) (f : FiPort → FiPort) : (s.modPort p f).fprint = s.fprint := rfl
@[simp] theorem State.modPort_reinLimit (p : Nat) (f : FiPort → FiPort) : (s.modPort p f).reinLimit = s.reinLimit := rfl
@[simp] theorem State.modPort_sealed (p : Nat) (f : FiPort → FiPort) : (s.modPort p f).sealed = s.sealed := rfl
@[simp] theorem State.modPort_svc (p : Nat) (f : FiPort → FiPort) : (s.modPort p f).svc = s.svc := rfl
@[simp] theorem State.modPort_slot (p : Nat) (f : FiPort → FiPort) : (s.modPort p f).slot = s.slot := rfl
@[simp] theorem State.modPort_pinc (p : Nat) (f : FiPort → FiPort) : (s.modPort p f).pinc = s.pinc := rfl
@[simp] theorem State.modPort_errs (p : Nat) (f : FiPort → FiPort) : (s.modPort p f).errs = s.errs := rfl
@[simp] theorem State.modPort_coreFaults (p : Nat) (f : FiPort → FiPort) : (s.modPort p f).coreFaults = s.coreFaults := rfl
@[simp] theorem State.modPort_net (p : Nat) (f : FiPort → FiPort) : (s.modPort p f).net = s.net := rfl
@[simp] theorem State.modPort_out (p : Nat) (f : FiPort → FiPort) : (s.modPort p f).out = s.out := rfl
@[simp] theorem State.modPort_draws (p : Nat) (f : FiPort → FiPort) : (s.modPort p f).draws = s.draws := rfl
@[simp] theorem State.modPort_pending (p : Nat) (f : FiPort → FiPort) : (s.modPort p f).pending = s.pending := rfl

/-! ingStat hi lo -/

@[simp] theorem State.ingStat_part (hi lo : Nat) : (s.ingStat hi lo).part = s.part := rfl
@[simp] theorem State.ingStat_cores (hi lo : Nat) : (s.ingStat hi lo).cores = s.cores := rfl
@[simp] theorem State.ingStat_tier (hi lo : Nat) : (s.ingStat hi lo).tier = s.tier := rfl
@[simp] theorem State.ingStat_pageMap (hi lo : Nat) : (s.ingStat hi lo).pageMap = s.pageMap := rfl
@[simp] theorem State.ingStat_sqStore (hi lo : Nat) : (s.ingStat hi lo).sqStore = s.sqStore := rfl
@[simp] theorem State.ingStat_tm (hi lo : Nat) : (s.ingStat hi lo).tm = s.tm := rfl
@[simp] theorem State.ingStat_tgs (hi lo : Nat) : (s.ingStat hi lo).tgs = s.tgs := rfl
@[simp] theorem State.ingStat_saddleQ (hi lo : Nat) : (s.ingStat hi lo).saddleQ = s.saddleQ := rfl
@[simp] theorem State.ingStat_pn (hi lo : Nat) : (s.ingStat hi lo).pn = s.pn := rfl
@[simp] theorem State.ingStat_hp (hi lo : Nat) : (s.ingStat hi lo).hp = s.hp := rfl
@[simp] theorem State.ingStat_ws (hi lo : Nat) : (s.ingStat hi lo).ws = s.ws := rfl
@[simp] theorem State.ingStat_prog (hi lo : Nat) : (s.ingStat hi lo).prog = s.prog := rfl
@[simp] theorem State.ingStat_fsvc (hi lo : Nat) : (s.ingStat hi lo).fsvc = s.fsvc := rfl
@[simp] theorem State.ingStat_cu (hi lo : Nat) : (s.ingStat hi lo).cu = s.cu := rfl
@[simp] theorem State.ingStat_ck (hi lo : Nat) : (s.ingStat hi lo).ck = s.ck := rfl
@[simp] theorem State.ingStat_ms (hi lo : Nat) : (s.ingStat hi lo).ms = s.ms := rfl
@[simp] theorem State.ingStat_fprint (hi lo : Nat) : (s.ingStat hi lo).fprint = s.fprint := rfl
@[simp] theorem State.ingStat_reinLimit (hi lo : Nat) : (s.ingStat hi lo).reinLimit = s.reinLimit := rfl
@[simp] theorem State.ingStat_sealed (hi lo : Nat) : (s.ingStat hi lo).sealed = s.sealed := rfl
@[simp] theorem State.ingStat_svc (hi lo : Nat) : (s.ingStat hi lo).svc = s.svc := rfl
@[simp] theorem State.ingStat_slot (hi lo : Nat) : (s.ingStat hi lo).slot = s.slot := rfl
@[simp] theorem State.ingStat_pinc (hi lo : Nat) : (s.ingStat hi lo).pinc = s.pinc := rfl
@[simp] theorem State.ingStat_errs (hi lo : Nat) : (s.ingStat hi lo).errs = s.errs := rfl
@[simp] theorem State.ingStat_coreFaults (hi lo : Nat) : (s.ingStat hi lo).coreFaults = s.coreFaults := rfl
@[simp] theorem State.ingStat_net (hi lo : Nat) : (s.ingStat hi lo).net = s.net := rfl
@[simp] theorem State.ingStat_out (hi lo : Nat) : (s.ingStat hi lo).out = s.out := rfl
@[simp] theorem State.ingStat_draws (hi lo : Nat) : (s.ingStat hi lo).draws = s.draws := rfl
@[simp] theorem State.ingStat_pending (hi lo : Nat) : (s.ingStat hi lo).pending = s.pending := rfl

/-! modMs f -/

@[simp] theorem State.modMs_part (f : Ms → Ms) : (s.modMs f).part = s.part := rfl
@[simp] theorem State.modMs_cores (f : Ms → Ms) : (s.modMs f).cores = s.cores := rfl
@[simp] theorem State.modMs_tier (f : Ms → Ms) : (s.modMs f).tier = s.tier := rfl
@[simp] theorem State.modMs_pageMap (f : Ms → Ms) : (s.modMs f).pageMap = s.pageMap := rfl
@[simp] theorem State.modMs_sqStore (f : Ms → Ms) : (s.modMs f).sqStore = s.sqStore := rfl
@[simp] theorem State.modMs_tm (f : Ms → Ms) : (s.modMs f).tm = s.tm := rfl
@[simp] theorem State.modMs_tgs (f : Ms → Ms) : (s.modMs f).tgs = s.tgs := rfl
@[simp] theorem State.modMs_saddleQ (f : Ms → Ms) : (s.modMs f).saddleQ = s.saddleQ := rfl
@[simp] theorem State.modMs_pn (f : Ms → Ms) : (s.modMs f).pn = s.pn := rfl
@[simp] theorem State.modMs_fi (f : Ms → Ms) : (s.modMs f).fi = s.fi := rfl
@[simp] theorem State.modMs_hp (f : Ms → Ms) : (s.modMs f).hp = s.hp := rfl
@[simp] theorem State.modMs_ws (f : Ms → Ms) : (s.modMs f).ws = s.ws := rfl
@[simp] theorem State.modMs_prog (f : Ms → Ms) : (s.modMs f).prog = s.prog := rfl
@[simp] theorem State.modMs_fsvc (f : Ms → Ms) : (s.modMs f).fsvc = s.fsvc := rfl
@[simp] theorem State.modMs_cu (f : Ms → Ms) : (s.modMs f).cu = s.cu := rfl
@[simp] theorem State.modMs_ck (f : Ms → Ms) : (s.modMs f).ck = s.ck := rfl
@[simp] theorem State.modMs_fprint (f : Ms → Ms) : (s.modMs f).fprint = s.fprint := rfl
@[simp] theorem State.modMs_reinLimit (f : Ms → Ms) : (s.modMs f).reinLimit = s.reinLimit := rfl
@[simp] theorem State.modMs_sealed (f : Ms → Ms) : (s.modMs f).sealed = s.sealed := rfl
@[simp] theorem State.modMs_svc (f : Ms → Ms) : (s.modMs f).svc = s.svc := rfl
@[simp] theorem State.modMs_slot (f : Ms → Ms) : (s.modMs f).slot = s.slot := rfl
@[simp] theorem State.modMs_pinc (f : Ms → Ms) : (s.modMs f).pinc = s.pinc := rfl
@[simp] theorem State.modMs_errs (f : Ms → Ms) : (s.modMs f).errs = s.errs := rfl
@[simp] theorem State.modMs_coreFaults (f : Ms → Ms) : (s.modMs f).coreFaults = s.coreFaults := rfl
@[simp] theorem State.modMs_net (f : Ms → Ms) : (s.modMs f).net = s.net := rfl
@[simp] theorem State.modMs_out (f : Ms → Ms) : (s.modMs f).out = s.out := rfl
@[simp] theorem State.modMs_draws (f : Ms → Ms) : (s.modMs f).draws = s.draws := rfl
@[simp] theorem State.modMs_pending (f : Ms → Ms) : (s.modMs f).pending = s.pending := rfl

/-! modCk f -/

@[simp] theorem State.modCk_part (f : Ck → Ck) : (s.modCk f).part = s.part := rfl
@[simp] theorem State.modCk_cores (f : Ck → Ck) : (s.modCk f).cores = s.cores := rfl
@[simp] theorem State.modCk_tier (f : Ck → Ck) : (s.modCk f).tier = s.tier := rfl
@[simp] theorem State.modCk_pageMap (f : Ck → Ck) : (s.modCk f).pageMap = s.pageMap := rfl
@[simp] theorem State.modCk_sqStore (f : Ck → Ck) : (s.modCk f).sqStore = s.sqStore := rfl
@[simp] theorem State.modCk_tm (f : Ck → Ck) : (s.modCk f).tm = s.tm := rfl
@[simp] theorem State.modCk_tgs (f : Ck → Ck) : (s.modCk f).tgs = s.tgs := rfl
@[simp] theorem State.modCk_saddleQ (f : Ck → Ck) : (s.modCk f).saddleQ = s.saddleQ := rfl
@[simp] theorem State.modCk_pn (f : Ck → Ck) : (s.modCk f).pn = s.pn := rfl
@[simp] theorem State.modCk_fi (f : Ck → Ck) : (s.modCk f).fi = s.fi := rfl
@[simp] theorem State.modCk_hp (f : Ck → Ck) : (s.modCk f).hp = s.hp := rfl
@[simp] theorem State.modCk_ws (f : Ck → Ck) : (s.modCk f).ws = s.ws := rfl
@[simp] theorem State.modCk_prog (f : Ck → Ck) : (s.modCk f).prog = s.prog := rfl
@[simp] theorem State.modCk_fsvc (f : Ck → Ck) : (s.modCk f).fsvc = s.fsvc := rfl
@[simp] theorem State.modCk_cu (f : Ck → Ck) : (s.modCk f).cu = s.cu := rfl
@[simp] theorem State.modCk_ms (f : Ck → Ck) : (s.modCk f).ms = s.ms := rfl
@[simp] theorem State.modCk_fprint (f : Ck → Ck) : (s.modCk f).fprint = s.fprint := rfl
@[simp] theorem State.modCk_reinLimit (f : Ck → Ck) : (s.modCk f).reinLimit = s.reinLimit := rfl
@[simp] theorem State.modCk_sealed (f : Ck → Ck) : (s.modCk f).sealed = s.sealed := rfl
@[simp] theorem State.modCk_svc (f : Ck → Ck) : (s.modCk f).svc = s.svc := rfl
@[simp] theorem State.modCk_slot (f : Ck → Ck) : (s.modCk f).slot = s.slot := rfl
@[simp] theorem State.modCk_pinc (f : Ck → Ck) : (s.modCk f).pinc = s.pinc := rfl
@[simp] theorem State.modCk_errs (f : Ck → Ck) : (s.modCk f).errs = s.errs := rfl
@[simp] theorem State.modCk_coreFaults (f : Ck → Ck) : (s.modCk f).coreFaults = s.coreFaults := rfl
@[simp] theorem State.modCk_net (f : Ck → Ck) : (s.modCk f).net = s.net := rfl
@[simp] theorem State.modCk_out (f : Ck → Ck) : (s.modCk f).out = s.out := rfl
@[simp] theorem State.modCk_draws (f : Ck → Ck) : (s.modCk f).draws = s.draws := rfl
@[simp] theorem State.modCk_pending (f : Ck → Ck) : (s.modCk f).pending = s.pending := rfl

/-! modCu f -/

@[simp] theorem State.modCu_part (f : Cu → Cu) : (s.modCu f).part = s.part := rfl
@[simp] theorem State.modCu_cores (f : Cu → Cu) : (s.modCu f).cores = s.cores := rfl
@[simp] theorem State.modCu_tier (f : Cu → Cu) : (s.modCu f).tier = s.tier := rfl
@[simp] theorem State.modCu_pageMap (f : Cu → Cu) : (s.modCu f).pageMap = s.pageMap := rfl
@[simp] theorem State.modCu_sqStore (f : Cu → Cu) : (s.modCu f).sqStore = s.sqStore := rfl
@[simp] theorem State.modCu_tm (f : Cu → Cu) : (s.modCu f).tm = s.tm := rfl
@[simp] theorem State.modCu_tgs (f : Cu → Cu) : (s.modCu f).tgs = s.tgs := rfl
@[simp] theorem State.modCu_saddleQ (f : Cu → Cu) : (s.modCu f).saddleQ = s.saddleQ := rfl
@[simp] theorem State.modCu_pn (f : Cu → Cu) : (s.modCu f).pn = s.pn := rfl
@[simp] theorem State.modCu_fi (f : Cu → Cu) : (s.modCu f).fi = s.fi := rfl
@[simp] theorem State.modCu_hp (f : Cu → Cu) : (s.modCu f).hp = s.hp := rfl
@[simp] theorem State.modCu_ws (f : Cu → Cu) : (s.modCu f).ws = s.ws := rfl
@[simp] theorem State.modCu_prog (f : Cu → Cu) : (s.modCu f).prog = s.prog := rfl
@[simp] theorem State.modCu_fsvc (f : Cu → Cu) : (s.modCu f).fsvc = s.fsvc := rfl
@[simp] theorem State.modCu_ck (f : Cu → Cu) : (s.modCu f).ck = s.ck := rfl
@[simp] theorem State.modCu_ms (f : Cu → Cu) : (s.modCu f).ms = s.ms := rfl
@[simp] theorem State.modCu_fprint (f : Cu → Cu) : (s.modCu f).fprint = s.fprint := rfl
@[simp] theorem State.modCu_reinLimit (f : Cu → Cu) : (s.modCu f).reinLimit = s.reinLimit := rfl
@[simp] theorem State.modCu_sealed (f : Cu → Cu) : (s.modCu f).sealed = s.sealed := rfl
@[simp] theorem State.modCu_svc (f : Cu → Cu) : (s.modCu f).svc = s.svc := rfl
@[simp] theorem State.modCu_slot (f : Cu → Cu) : (s.modCu f).slot = s.slot := rfl
@[simp] theorem State.modCu_pinc (f : Cu → Cu) : (s.modCu f).pinc = s.pinc := rfl
@[simp] theorem State.modCu_errs (f : Cu → Cu) : (s.modCu f).errs = s.errs := rfl
@[simp] theorem State.modCu_coreFaults (f : Cu → Cu) : (s.modCu f).coreFaults = s.coreFaults := rfl
@[simp] theorem State.modCu_net (f : Cu → Cu) : (s.modCu f).net = s.net := rfl
@[simp] theorem State.modCu_out (f : Cu → Cu) : (s.modCu f).out = s.out := rfl
@[simp] theorem State.modCu_draws (f : Cu → Cu) : (s.modCu f).draws = s.draws := rfl
@[simp] theorem State.modCu_pending (f : Cu → Cu) : (s.modCu f).pending = s.pending := rfl

/-! modLoad f -/

@[simp] theorem State.modLoad_part (f : WsLoad → WsLoad) : (s.modLoad f).part = s.part := rfl
@[simp] theorem State.modLoad_cores (f : WsLoad → WsLoad) : (s.modLoad f).cores = s.cores := rfl
@[simp] theorem State.modLoad_tier (f : WsLoad → WsLoad) : (s.modLoad f).tier = s.tier := rfl
@[simp] theorem State.modLoad_pageMap (f : WsLoad → WsLoad) : (s.modLoad f).pageMap = s.pageMap := rfl
@[simp] theorem State.modLoad_sqStore (f : WsLoad → WsLoad) : (s.modLoad f).sqStore = s.sqStore := rfl
@[simp] theorem State.modLoad_tm (f : WsLoad → WsLoad) : (s.modLoad f).tm = s.tm := rfl
@[simp] theorem State.modLoad_tgs (f : WsLoad → WsLoad) : (s.modLoad f).tgs = s.tgs := rfl
@[simp] theorem State.modLoad_saddleQ (f : WsLoad → WsLoad) : (s.modLoad f).saddleQ = s.saddleQ := rfl
@[simp] theorem State.modLoad_pn (f : WsLoad → WsLoad) : (s.modLoad f).pn = s.pn := rfl
@[simp] theorem State.modLoad_fi (f : WsLoad → WsLoad) : (s.modLoad f).fi = s.fi := rfl
@[simp] theorem State.modLoad_hp (f : WsLoad → WsLoad) : (s.modLoad f).hp = s.hp := rfl
@[simp] theorem State.modLoad_prog (f : WsLoad → WsLoad) : (s.modLoad f).prog = s.prog := rfl
@[simp] theorem State.modLoad_fsvc (f : WsLoad → WsLoad) : (s.modLoad f).fsvc = s.fsvc := rfl
@[simp] theorem State.modLoad_cu (f : WsLoad → WsLoad) : (s.modLoad f).cu = s.cu := rfl
@[simp] theorem State.modLoad_ck (f : WsLoad → WsLoad) : (s.modLoad f).ck = s.ck := rfl
@[simp] theorem State.modLoad_ms (f : WsLoad → WsLoad) : (s.modLoad f).ms = s.ms := rfl
@[simp] theorem State.modLoad_fprint (f : WsLoad → WsLoad) : (s.modLoad f).fprint = s.fprint := rfl
@[simp] theorem State.modLoad_reinLimit (f : WsLoad → WsLoad) : (s.modLoad f).reinLimit = s.reinLimit := rfl
@[simp] theorem State.modLoad_sealed (f : WsLoad → WsLoad) : (s.modLoad f).sealed = s.sealed := rfl
@[simp] theorem State.modLoad_svc (f : WsLoad → WsLoad) : (s.modLoad f).svc = s.svc := rfl
@[simp] theorem State.modLoad_slot (f : WsLoad → WsLoad) : (s.modLoad f).slot = s.slot := rfl
@[simp] theorem State.modLoad_pinc (f : WsLoad → WsLoad) : (s.modLoad f).pinc = s.pinc := rfl
@[simp] theorem State.modLoad_errs (f : WsLoad → WsLoad) : (s.modLoad f).errs = s.errs := rfl
@[simp] theorem State.modLoad_coreFaults (f : WsLoad → WsLoad) : (s.modLoad f).coreFaults = s.coreFaults := rfl
@[simp] theorem State.modLoad_net (f : WsLoad → WsLoad) : (s.modLoad f).net = s.net := rfl
@[simp] theorem State.modLoad_out (f : WsLoad → WsLoad) : (s.modLoad f).out = s.out := rfl
@[simp] theorem State.modLoad_draws (f : WsLoad → WsLoad) : (s.modLoad f).draws = s.draws := rfl
@[simp] theorem State.modLoad_pending (f : WsLoad → WsLoad) : (s.modLoad f).pending = s.pending := rfl

/-! modTg n f -/

@[simp] theorem State.modTg_part (n : Nat) (f : Tollgate → Tollgate) : (s.modTg n f).part = s.part := rfl
@[simp] theorem State.modTg_cores (n : Nat) (f : Tollgate → Tollgate) : (s.modTg n f).cores = s.cores := rfl
@[simp] theorem State.modTg_tier (n : Nat) (f : Tollgate → Tollgate) : (s.modTg n f).tier = s.tier := rfl
@[simp] theorem State.modTg_pageMap (n : Nat) (f : Tollgate → Tollgate) : (s.modTg n f).pageMap = s.pageMap := rfl
@[simp] theorem State.modTg_sqStore (n : Nat) (f : Tollgate → Tollgate) : (s.modTg n f).sqStore = s.sqStore := rfl
@[simp] theorem State.modTg_tm (n : Nat) (f : Tollgate → Tollgate) : (s.modTg n f).tm = s.tm := rfl
@[simp] theorem State.modTg_saddleQ (n : Nat) (f : Tollgate → Tollgate) : (s.modTg n f).saddleQ = s.saddleQ := rfl
@[simp] theorem State.modTg_pn (n : Nat) (f : Tollgate → Tollgate) : (s.modTg n f).pn = s.pn := rfl
@[simp] theorem State.modTg_fi (n : Nat) (f : Tollgate → Tollgate) : (s.modTg n f).fi = s.fi := rfl
@[simp] theorem State.modTg_hp (n : Nat) (f : Tollgate → Tollgate) : (s.modTg n f).hp = s.hp := rfl
@[simp] theorem State.modTg_ws (n : Nat) (f : Tollgate → Tollgate) : (s.modTg n f).ws = s.ws := rfl
@[simp] theorem State.modTg_prog (n : Nat) (f : Tollgate → Tollgate) : (s.modTg n f).prog = s.prog := rfl
@[simp] theorem State.modTg_fsvc (n : Nat) (f : Tollgate → Tollgate) : (s.modTg n f).fsvc = s.fsvc := rfl
@[simp] theorem State.modTg_cu (n : Nat) (f : Tollgate → Tollgate) : (s.modTg n f).cu = s.cu := rfl
@[simp] theorem State.modTg_ck (n : Nat) (f : Tollgate → Tollgate) : (s.modTg n f).ck = s.ck := rfl
@[simp] theorem State.modTg_ms (n : Nat) (f : Tollgate → Tollgate) : (s.modTg n f).ms = s.ms := rfl
@[simp] theorem State.modTg_fprint (n : Nat) (f : Tollgate → Tollgate) : (s.modTg n f).fprint = s.fprint := rfl
@[simp] theorem State.modTg_reinLimit (n : Nat) (f : Tollgate → Tollgate) : (s.modTg n f).reinLimit = s.reinLimit := rfl
@[simp] theorem State.modTg_sealed (n : Nat) (f : Tollgate → Tollgate) : (s.modTg n f).sealed = s.sealed := rfl
@[simp] theorem State.modTg_svc (n : Nat) (f : Tollgate → Tollgate) : (s.modTg n f).svc = s.svc := rfl
@[simp] theorem State.modTg_slot (n : Nat) (f : Tollgate → Tollgate) : (s.modTg n f).slot = s.slot := rfl
@[simp] theorem State.modTg_pinc (n : Nat) (f : Tollgate → Tollgate) : (s.modTg n f).pinc = s.pinc := rfl
@[simp] theorem State.modTg_errs (n : Nat) (f : Tollgate → Tollgate) : (s.modTg n f).errs = s.errs := rfl
@[simp] theorem State.modTg_coreFaults (n : Nat) (f : Tollgate → Tollgate) : (s.modTg n f).coreFaults = s.coreFaults := rfl
@[simp] theorem State.modTg_net (n : Nat) (f : Tollgate → Tollgate) : (s.modTg n f).net = s.net := rfl
@[simp] theorem State.modTg_out (n : Nat) (f : Tollgate → Tollgate) : (s.modTg n f).out = s.out := rfl
@[simp] theorem State.modTg_draws (n : Nat) (f : Tollgate → Tollgate) : (s.modTg n f).draws = s.draws := rfl
@[simp] theorem State.modTg_pending (n : Nat) (f : Tollgate → Tollgate) : (s.modTg n f).pending = s.pending := rfl

/-! modQp n f -/

@[simp] theorem State.modQp_part (n : Nat) (f : Qp → Qp) : (s.modQp n f).part = s.part := rfl
@[simp] theorem State.modQp_cores (n : Nat) (f : Qp → Qp) : (s.modQp n f).cores = s.cores := rfl
@[simp] theorem State.modQp_tier (n : Nat) (f : Qp → Qp) : (s.modQp n f).tier = s.tier := rfl
@[simp] theorem State.modQp_pageMap (n : Nat) (f : Qp → Qp) : (s.modQp n f).pageMap = s.pageMap := rfl
@[simp] theorem State.modQp_sqStore (n : Nat) (f : Qp → Qp) : (s.modQp n f).sqStore = s.sqStore := rfl
@[simp] theorem State.modQp_tm (n : Nat) (f : Qp → Qp) : (s.modQp n f).tm = s.tm := rfl
@[simp] theorem State.modQp_tgs (n : Nat) (f : Qp → Qp) : (s.modQp n f).tgs = s.tgs := rfl
@[simp] theorem State.modQp_saddleQ (n : Nat) (f : Qp → Qp) : (s.modQp n f).saddleQ = s.saddleQ := rfl
@[simp] theorem State.modQp_pn (n : Nat) (f : Qp → Qp) : (s.modQp n f).pn = s.pn := rfl
@[simp] theorem State.modQp_fi (n : Nat) (f : Qp → Qp) : (s.modQp n f).fi = s.fi := rfl
@[simp] theorem State.modQp_ws (n : Nat) (f : Qp → Qp) : (s.modQp n f).ws = s.ws := rfl
@[simp] theorem State.modQp_prog (n : Nat) (f : Qp → Qp) : (s.modQp n f).prog = s.prog := rfl
@[simp] theorem State.modQp_fsvc (n : Nat) (f : Qp → Qp) : (s.modQp n f).fsvc = s.fsvc := rfl
@[simp] theorem State.modQp_cu (n : Nat) (f : Qp → Qp) : (s.modQp n f).cu = s.cu := rfl
@[simp] theorem State.modQp_ck (n : Nat) (f : Qp → Qp) : (s.modQp n f).ck = s.ck := rfl
@[simp] theorem State.modQp_ms (n : Nat) (f : Qp → Qp) : (s.modQp n f).ms = s.ms := rfl
@[simp] theorem State.modQp_fprint (n : Nat) (f : Qp → Qp) : (s.modQp n f).fprint = s.fprint := rfl
@[simp] theorem State.modQp_reinLimit (n : Nat) (f : Qp → Qp) : (s.modQp n f).reinLimit = s.reinLimit := rfl
@[simp] theorem State.modQp_sealed (n : Nat) (f : Qp → Qp) : (s.modQp n f).sealed = s.sealed := rfl
@[simp] theorem State.modQp_svc (n : Nat) (f : Qp → Qp) : (s.modQp n f).svc = s.svc := rfl
@[simp] theorem State.modQp_slot (n : Nat) (f : Qp → Qp) : (s.modQp n f).slot = s.slot := rfl
@[simp] theorem State.modQp_pinc (n : Nat) (f : Qp → Qp) : (s.modQp n f).pinc = s.pinc := rfl
@[simp] theorem State.modQp_errs (n : Nat) (f : Qp → Qp) : (s.modQp n f).errs = s.errs := rfl
@[simp] theorem State.modQp_coreFaults (n : Nat) (f : Qp → Qp) : (s.modQp n f).coreFaults = s.coreFaults := rfl
@[simp] theorem State.modQp_net (n : Nat) (f : Qp → Qp) : (s.modQp n f).net = s.net := rfl
@[simp] theorem State.modQp_out (n : Nat) (f : Qp → Qp) : (s.modQp n f).out = s.out := rfl
@[simp] theorem State.modQp_draws (n : Nat) (f : Qp → Qp) : (s.modQp n f).draws = s.draws := rfl
@[simp] theorem State.modQp_pending (n : Nat) (f : Qp → Qp) : (s.modQp n f).pending = s.pending := rfl

/-! modSec n f -/

@[simp] theorem State.modSec_part (n : Nat) (f : Section → Section) : (s.modSec n f).part = s.part := rfl
@[simp] theorem State.modSec_cores (n : Nat) (f : Section → Section) : (s.modSec n f).cores = s.cores := rfl
@[simp] theorem State.modSec_tier (n : Nat) (f : Section → Section) : (s.modSec n f).tier = s.tier := rfl
@[simp] theorem State.modSec_pageMap (n : Nat) (f : Section → Section) : (s.modSec n f).pageMap = s.pageMap := rfl
@[simp] theorem State.modSec_sqStore (n : Nat) (f : Section → Section) : (s.modSec n f).sqStore = s.sqStore := rfl
@[simp] theorem State.modSec_tm (n : Nat) (f : Section → Section) : (s.modSec n f).tm = s.tm := rfl
@[simp] theorem State.modSec_tgs (n : Nat) (f : Section → Section) : (s.modSec n f).tgs = s.tgs := rfl
@[simp] theorem State.modSec_saddleQ (n : Nat) (f : Section → Section) : (s.modSec n f).saddleQ = s.saddleQ := rfl
@[simp] theorem State.modSec_pn (n : Nat) (f : Section → Section) : (s.modSec n f).pn = s.pn := rfl
@[simp] theorem State.modSec_fi (n : Nat) (f : Section → Section) : (s.modSec n f).fi = s.fi := rfl
@[simp] theorem State.modSec_ws (n : Nat) (f : Section → Section) : (s.modSec n f).ws = s.ws := rfl
@[simp] theorem State.modSec_prog (n : Nat) (f : Section → Section) : (s.modSec n f).prog = s.prog := rfl
@[simp] theorem State.modSec_fsvc (n : Nat) (f : Section → Section) : (s.modSec n f).fsvc = s.fsvc := rfl
@[simp] theorem State.modSec_cu (n : Nat) (f : Section → Section) : (s.modSec n f).cu = s.cu := rfl
@[simp] theorem State.modSec_ck (n : Nat) (f : Section → Section) : (s.modSec n f).ck = s.ck := rfl
@[simp] theorem State.modSec_ms (n : Nat) (f : Section → Section) : (s.modSec n f).ms = s.ms := rfl
@[simp] theorem State.modSec_fprint (n : Nat) (f : Section → Section) : (s.modSec n f).fprint = s.fprint := rfl
@[simp] theorem State.modSec_reinLimit (n : Nat) (f : Section → Section) : (s.modSec n f).reinLimit = s.reinLimit := rfl
@[simp] theorem State.modSec_sealed (n : Nat) (f : Section → Section) : (s.modSec n f).sealed = s.sealed := rfl
@[simp] theorem State.modSec_svc (n : Nat) (f : Section → Section) : (s.modSec n f).svc = s.svc := rfl
@[simp] theorem State.modSec_slot (n : Nat) (f : Section → Section) : (s.modSec n f).slot = s.slot := rfl
@[simp] theorem State.modSec_pinc (n : Nat) (f : Section → Section) : (s.modSec n f).pinc = s.pinc := rfl
@[simp] theorem State.modSec_errs (n : Nat) (f : Section → Section) : (s.modSec n f).errs = s.errs := rfl
@[simp] theorem State.modSec_coreFaults (n : Nat) (f : Section → Section) : (s.modSec n f).coreFaults = s.coreFaults := rfl
@[simp] theorem State.modSec_net (n : Nat) (f : Section → Section) : (s.modSec n f).net = s.net := rfl
@[simp] theorem State.modSec_out (n : Nat) (f : Section → Section) : (s.modSec n f).out = s.out := rfl
@[simp] theorem State.modSec_draws (n : Nat) (f : Section → Section) : (s.modSec n f).draws = s.draws := rfl
@[simp] theorem State.modSec_pending (n : Nat) (f : Section → Section) : (s.modSec n f).pending = s.pending := rfl

/-! modSlot n f -/

@[simp] theorem State.modSlot_part (n : Nat) (f : Slot → Slot) : (s.modSlot n f).part = s.part := rfl
@[simp] theorem State.modSlot_cores (n : Nat) (f : Slot → Slot) : (s.modSlot n f).cores = s.cores := rfl
@[simp] theorem State.modSlot_tier (n : Nat) (f : Slot → Slot) : (s.modSlot n f).tier = s.tier := rfl
@[simp] theorem State.modSlot_pageMap (n : Nat) (f : Slot → Slot) : (s.modSlot n f).pageMap = s.pageMap := rfl
@[simp] theorem State.modSlot_sqStore (n : Nat) (f : Slot → Slot) : (s.modSlot n f).sqStore = s.sqStore := rfl
@[simp] theorem State.modSlot_tm (n : Nat) (f : Slot → Slot) : (s.modSlot n f).tm = s.tm := rfl
@[simp] theorem State.modSlot_tgs (n : Nat) (f : Slot → Slot) : (s.modSlot n f).tgs = s.tgs := rfl
@[simp] theorem State.modSlot_saddleQ (n : Nat) (f : Slot → Slot) : (s.modSlot n f).saddleQ = s.saddleQ := rfl
@[simp] theorem State.modSlot_pn (n : Nat) (f : Slot → Slot) : (s.modSlot n f).pn = s.pn := rfl
@[simp] theorem State.modSlot_fi (n : Nat) (f : Slot → Slot) : (s.modSlot n f).fi = s.fi := rfl
@[simp] theorem State.modSlot_ws (n : Nat) (f : Slot → Slot) : (s.modSlot n f).ws = s.ws := rfl
@[simp] theorem State.modSlot_prog (n : Nat) (f : Slot → Slot) : (s.modSlot n f).prog = s.prog := rfl
@[simp] theorem State.modSlot_fsvc (n : Nat) (f : Slot → Slot) : (s.modSlot n f).fsvc = s.fsvc := rfl
@[simp] theorem State.modSlot_cu (n : Nat) (f : Slot → Slot) : (s.modSlot n f).cu = s.cu := rfl
@[simp] theorem State.modSlot_ck (n : Nat) (f : Slot → Slot) : (s.modSlot n f).ck = s.ck := rfl
@[simp] theorem State.modSlot_ms (n : Nat) (f : Slot → Slot) : (s.modSlot n f).ms = s.ms := rfl
@[simp] theorem State.modSlot_fprint (n : Nat) (f : Slot → Slot) : (s.modSlot n f).fprint = s.fprint := rfl
@[simp] theorem State.modSlot_reinLimit (n : Nat) (f : Slot → Slot) : (s.modSlot n f).reinLimit = s.reinLimit := rfl
@[simp] theorem State.modSlot_sealed (n : Nat) (f : Slot → Slot) : (s.modSlot n f).sealed = s.sealed := rfl
@[simp] theorem State.modSlot_svc (n : Nat) (f : Slot → Slot) : (s.modSlot n f).svc = s.svc := rfl
@[simp] theorem State.modSlot_slot (n : Nat) (f : Slot → Slot) : (s.modSlot n f).slot = s.slot := rfl
@[simp] theorem State.modSlot_pinc (n : Nat) (f : Slot → Slot) : (s.modSlot n f).pinc = s.pinc := rfl
@[simp] theorem State.modSlot_errs (n : Nat) (f : Slot → Slot) : (s.modSlot n f).errs = s.errs := rfl
@[simp] theorem State.modSlot_coreFaults (n : Nat) (f : Slot → Slot) : (s.modSlot n f).coreFaults = s.coreFaults := rfl
@[simp] theorem State.modSlot_net (n : Nat) (f : Slot → Slot) : (s.modSlot n f).net = s.net := rfl
@[simp] theorem State.modSlot_out (n : Nat) (f : Slot → Slot) : (s.modSlot n f).out = s.out := rfl
@[simp] theorem State.modSlot_draws (n : Nat) (f : Slot → Slot) : (s.modSlot n f).draws = s.draws := rfl
@[simp] theorem State.modSlot_pending (n : Nat) (f : Slot → Slot) : (s.modSlot n f).pending = s.pending := rfl

/-! modSet n f -/

@[simp] theorem State.modSet_part (n : Nat) (f : WsSet → WsSet) : (s.modSet n f).part = s.part := rfl
@[simp] theorem State.modSet_cores (n : Nat) (f : WsSet → WsSet) : (s.modSet n f).cores = s.cores := rfl
@[simp] theorem State.modSet_tier (n : Nat) (f : WsSet → WsSet) : (s.modSet n f).tier = s.tier := rfl
@[simp] theorem State.modSet_pageMap (n : Nat) (f : WsSet → WsSet) : (s.modSet n f).pageMap = s.pageMap := rfl
@[simp] theorem State.modSet_sqStore (n : Nat) (f : WsSet → WsSet) : (s.modSet n f).sqStore = s.sqStore := rfl
@[simp] theorem State.modSet_tm (n : Nat) (f : WsSet → WsSet) : (s.modSet n f).tm = s.tm := rfl
@[simp] theorem State.modSet_tgs (n : Nat) (f : WsSet → WsSet) : (s.modSet n f).tgs = s.tgs := rfl
@[simp] theorem State.modSet_saddleQ (n : Nat) (f : WsSet → WsSet) : (s.modSet n f).saddleQ = s.saddleQ := rfl
@[simp] theorem State.modSet_pn (n : Nat) (f : WsSet → WsSet) : (s.modSet n f).pn = s.pn := rfl
@[simp] theorem State.modSet_fi (n : Nat) (f : WsSet → WsSet) : (s.modSet n f).fi = s.fi := rfl
@[simp] theorem State.modSet_hp (n : Nat) (f : WsSet → WsSet) : (s.modSet n f).hp = s.hp := rfl
@[simp] theorem State.modSet_prog (n : Nat) (f : WsSet → WsSet) : (s.modSet n f).prog = s.prog := rfl
@[simp] theorem State.modSet_fsvc (n : Nat) (f : WsSet → WsSet) : (s.modSet n f).fsvc = s.fsvc := rfl
@[simp] theorem State.modSet_cu (n : Nat) (f : WsSet → WsSet) : (s.modSet n f).cu = s.cu := rfl
@[simp] theorem State.modSet_ck (n : Nat) (f : WsSet → WsSet) : (s.modSet n f).ck = s.ck := rfl
@[simp] theorem State.modSet_ms (n : Nat) (f : WsSet → WsSet) : (s.modSet n f).ms = s.ms := rfl
@[simp] theorem State.modSet_fprint (n : Nat) (f : WsSet → WsSet) : (s.modSet n f).fprint = s.fprint := rfl
@[simp] theorem State.modSet_reinLimit (n : Nat) (f : WsSet → WsSet) : (s.modSet n f).reinLimit = s.reinLimit := rfl
@[simp] theorem State.modSet_sealed (n : Nat) (f : WsSet → WsSet) : (s.modSet n f).sealed = s.sealed := rfl
@[simp] theorem State.modSet_svc (n : Nat) (f : WsSet → WsSet) : (s.modSet n f).svc = s.svc := rfl
@[simp] theorem State.modSet_slot (n : Nat) (f : WsSet → WsSet) : (s.modSet n f).slot = s.slot := rfl
@[simp] theorem State.modSet_pinc (n : Nat) (f : WsSet → WsSet) : (s.modSet n f).pinc = s.pinc := rfl
@[simp] theorem State.modSet_errs (n : Nat) (f : WsSet → WsSet) : (s.modSet n f).errs = s.errs := rfl
@[simp] theorem State.modSet_coreFaults (n : Nat) (f : WsSet → WsSet) : (s.modSet n f).coreFaults = s.coreFaults := rfl
@[simp] theorem State.modSet_net (n : Nat) (f : WsSet → WsSet) : (s.modSet n f).net = s.net := rfl
@[simp] theorem State.modSet_out (n : Nat) (f : WsSet → WsSet) : (s.modSet n f).out = s.out := rfl
@[simp] theorem State.modSet_draws (n : Nat) (f : WsSet → WsSet) : (s.modSet n f).draws = s.draws := rfl
@[simp] theorem State.modSet_pending (n : Nat) (f : WsSet → WsSet) : (s.modSet n f).pending = s.pending := rfl

@[simp] theorem State.modMs_ms (f : Ms → Ms) : (s.modMs f).ms = f s.ms := rfl
@[simp] theorem State.modCk_ck (f : Ck → Ck) : (s.modCk f).ck = f s.ck := rfl
@[simp] theorem State.modCu_cu (f : Cu → Cu) : (s.modCu f).cu = f s.cu := rfl
@[simp] theorem State.modLoad_load (f : WsLoad → WsLoad) : (s.modLoad f).ws.load = f s.ws.load := rfl
@[simp] theorem State.modTg_tgs (n : Nat) (f : Tollgate → Tollgate) : (s.modTg n f).tgs = vmod s.tgs n f := rfl

/-! setPort col sd p -/

@[simp] theorem State.setPort_part (col : Nat) (sd : Side) (p : PortSide) : (s.setPort col sd p).part = s.part := rfl
@[simp] theorem State.setPort_cores (col : Nat) (sd : Side) (p : PortSide) : (s.setPort col sd p).cores = s.cores := rfl
@[simp] theorem State.setPort_tier (col : Nat) (sd : Side) (p : PortSide) : (s.setPort col sd p).tier = s.tier := rfl
@[simp] theorem State.setPort_pageMap (col : Nat) (sd : Side) (p : PortSide) : (s.setPort col sd p).pageMap = s.pageMap := rfl
@[simp] theorem State.setPort_sqStore (col : Nat) (sd : Side) (p : PortSide) : (s.setPort col sd p).sqStore = s.sqStore := rfl
@[simp] theorem State.setPort_tgs (col : Nat) (sd : Side) (p : PortSide) : (s.setPort col sd p).tgs = s.tgs := rfl
@[simp] theorem State.setPort_saddleQ (col : Nat) (sd : Side) (p : PortSide) : (s.setPort col sd p).saddleQ = s.saddleQ := rfl
@[simp] theorem State.setPort_pn (col : Nat) (sd : Side) (p : PortSide) : (s.setPort col sd p).pn = s.pn := rfl
@[simp] theorem State.setPort_fi (col : Nat) (sd : Side) (p : PortSide) : (s.setPort col sd p).fi = s.fi := rfl
@[simp] theorem State.setPort_hp (col : Nat) (sd : Side) (p : PortSide) : (s.setPort col sd p).hp = s.hp := rfl
@[simp] theorem State.setPort_ws (col : Nat) (sd : Side) (p : PortSide) : (s.setPort col sd p).ws = s.ws := rfl
@[simp] theorem State.setPort_prog (col : Nat) (sd : Side) (p : PortSide) : (s.setPort col sd p).prog = s.prog := rfl
@[simp] theorem State.setPort_fsvc (col : Nat) (sd : Side) (p : PortSide) : (s.setPort col sd p).fsvc = s.fsvc := rfl
@[simp] theorem State.setPort_cu (col : Nat) (sd : Side) (p : PortSide) : (s.setPort col sd p).cu = s.cu := rfl
@[simp] theorem State.setPort_ck (col : Nat) (sd : Side) (p : PortSide) : (s.setPort col sd p).ck = s.ck := rfl
@[simp] theorem State.setPort_ms (col : Nat) (sd : Side) (p : PortSide) : (s.setPort col sd p).ms = s.ms := rfl
@[simp] theorem State.setPort_fprint (col : Nat) (sd : Side) (p : PortSide) : (s.setPort col sd p).fprint = s.fprint := rfl
@[simp] theorem State.setPort_reinLimit (col : Nat) (sd : Side) (p : PortSide) : (s.setPort col sd p).reinLimit = s.reinLimit := rfl
@[simp] theorem State.setPort_sealed (col : Nat) (sd : Side) (p : PortSide) : (s.setPort col sd p).sealed = s.sealed := rfl
@[simp] theorem State.setPort_svc (col : Nat) (sd : Side) (p : PortSide) : (s.setPort col sd p).svc = s.svc := rfl
@[simp] theorem State.setPort_slot (col : Nat) (sd : Side) (p : PortSide) : (s.setPort col sd p).slot = s.slot := rfl
@[simp] theorem State.setPort_pinc (col : Nat) (sd : Side) (p : PortSide) : (s.setPort col sd p).pinc = s.pinc := rfl
@[simp] theorem State.setPort_errs (col : Nat) (sd : Side) (p : PortSide) : (s.setPort col sd p).errs = s.errs := rfl
@[simp] theorem State.setPort_coreFaults (col : Nat) (sd : Side) (p : PortSide) : (s.setPort col sd p).coreFaults = s.coreFaults := rfl
@[simp] theorem State.setPort_net (col : Nat) (sd : Side) (p : PortSide) : (s.setPort col sd p).net = s.net := rfl
@[simp] theorem State.setPort_out (col : Nat) (sd : Side) (p : PortSide) : (s.setPort col sd p).out = s.out := rfl
@[simp] theorem State.setPort_draws (col : Nat) (sd : Side) (p : PortSide) : (s.setPort col sd p).draws = s.draws := rfl
@[simp] theorem State.setPort_pending (col : Nat) (sd : Side) (p : PortSide) : (s.setPort col sd p).pending = s.pending := rfl

/-! colStat col hi lo n -/

@[simp] theorem State.colStat_part (col hi lo n : Nat) : (s.colStat col hi lo n).part = s.part := rfl
@[simp] theorem State.colStat_cores (col hi lo n : Nat) : (s.colStat col hi lo n).cores = s.cores := rfl
@[simp] theorem State.colStat_tier (col hi lo n : Nat) : (s.colStat col hi lo n).tier = s.tier := rfl
@[simp] theorem State.colStat_pageMap (col hi lo n : Nat) : (s.colStat col hi lo n).pageMap = s.pageMap := rfl
@[simp] theorem State.colStat_sqStore (col hi lo n : Nat) : (s.colStat col hi lo n).sqStore = s.sqStore := rfl
@[simp] theorem State.colStat_tgs (col hi lo n : Nat) : (s.colStat col hi lo n).tgs = s.tgs := rfl
@[simp] theorem State.colStat_saddleQ (col hi lo n : Nat) : (s.colStat col hi lo n).saddleQ = s.saddleQ := rfl
@[simp] theorem State.colStat_pn (col hi lo n : Nat) : (s.colStat col hi lo n).pn = s.pn := rfl
@[simp] theorem State.colStat_fi (col hi lo n : Nat) : (s.colStat col hi lo n).fi = s.fi := rfl
@[simp] theorem State.colStat_hp (col hi lo n : Nat) : (s.colStat col hi lo n).hp = s.hp := rfl
@[simp] theorem State.colStat_ws (col hi lo n : Nat) : (s.colStat col hi lo n).ws = s.ws := rfl
@[simp] theorem State.colStat_prog (col hi lo n : Nat) : (s.colStat col hi lo n).prog = s.prog := rfl
@[simp] theorem State.colStat_fsvc (col hi lo n : Nat) : (s.colStat col hi lo n).fsvc = s.fsvc := rfl
@[simp] theorem State.colStat_cu (col hi lo n : Nat) : (s.colStat col hi lo n).cu = s.cu := rfl
@[simp] theorem State.colStat_ck (col hi lo n : Nat) : (s.colStat col hi lo n).ck = s.ck := rfl
@[simp] theorem State.colStat_ms (col hi lo n : Nat) : (s.colStat col hi lo n).ms = s.ms := rfl
@[simp] theorem State.colStat_fprint (col hi lo n : Nat) : (s.colStat col hi lo n).fprint = s.fprint := rfl
@[simp] theorem State.colStat_reinLimit (col hi lo n : Nat) : (s.colStat col hi lo n).reinLimit = s.reinLimit := rfl
@[simp] theorem State.colStat_sealed (col hi lo n : Nat) : (s.colStat col hi lo n).sealed = s.sealed := rfl
@[simp] theorem State.colStat_svc (col hi lo n : Nat) : (s.colStat col hi lo n).svc = s.svc := rfl
@[simp] theorem State.colStat_slot (col hi lo n : Nat) : (s.colStat col hi lo n).slot = s.slot := rfl
@[simp] theorem State.colStat_pinc (col hi lo n : Nat) : (s.colStat col hi lo n).pinc = s.pinc := rfl
@[simp] theorem State.colStat_errs (col hi lo n : Nat) : (s.colStat col hi lo n).errs = s.errs := rfl
@[simp] theorem State.colStat_coreFaults (col hi lo n : Nat) : (s.colStat col hi lo n).coreFaults = s.coreFaults := rfl
@[simp] theorem State.colStat_net (col hi lo n : Nat) : (s.colStat col hi lo n).net = s.net := rfl
@[simp] theorem State.colStat_out (col hi lo n : Nat) : (s.colStat col hi lo n).out = s.out := rfl
@[simp] theorem State.colStat_draws (col hi lo n : Nat) : (s.colStat col hi lo n).draws = s.draws := rfl
@[simp] theorem State.colStat_pending (col hi lo n : Nat) : (s.colStat col hi lo n).pending = s.pending := rfl

/-! modQueue c q f -/

@[simp] theorem State.modQueue_part (c : CoreId) (q : Nat) (f : DmaQueue → DmaQueue) : (s.modQueue c q f).part = s.part := rfl
@[simp] theorem State.modQueue_tier (c : CoreId) (q : Nat) (f : DmaQueue → DmaQueue) : (s.modQueue c q f).tier = s.tier := rfl
@[simp] theorem State.modQueue_pageMap (c : CoreId) (q : Nat) (f : DmaQueue → DmaQueue) : (s.modQueue c q f).pageMap = s.pageMap := rfl
@[simp] theorem State.modQueue_sqStore (c : CoreId) (q : Nat) (f : DmaQueue → DmaQueue) : (s.modQueue c q f).sqStore = s.sqStore := rfl
@[simp] theorem State.modQueue_tm (c : CoreId) (q : Nat) (f : DmaQueue → DmaQueue) : (s.modQueue c q f).tm = s.tm := rfl
@[simp] theorem State.modQueue_tgs (c : CoreId) (q : Nat) (f : DmaQueue → DmaQueue) : (s.modQueue c q f).tgs = s.tgs := rfl
@[simp] theorem State.modQueue_saddleQ (c : CoreId) (q : Nat) (f : DmaQueue → DmaQueue) : (s.modQueue c q f).saddleQ = s.saddleQ := rfl
@[simp] theorem State.modQueue_pn (c : CoreId) (q : Nat) (f : DmaQueue → DmaQueue) : (s.modQueue c q f).pn = s.pn := rfl
@[simp] theorem State.modQueue_fi (c : CoreId) (q : Nat) (f : DmaQueue → DmaQueue) : (s.modQueue c q f).fi = s.fi := rfl
@[simp] theorem State.modQueue_hp (c : CoreId) (q : Nat) (f : DmaQueue → DmaQueue) : (s.modQueue c q f).hp = s.hp := rfl
@[simp] theorem State.modQueue_ws (c : CoreId) (q : Nat) (f : DmaQueue → DmaQueue) : (s.modQueue c q f).ws = s.ws := rfl
@[simp] theorem State.modQueue_prog (c : CoreId) (q : Nat) (f : DmaQueue → DmaQueue) : (s.modQueue c q f).prog = s.prog := rfl
@[simp] theorem State.modQueue_fsvc (c : CoreId) (q : Nat) (f : DmaQueue → DmaQueue) : (s.modQueue c q f).fsvc = s.fsvc := rfl
@[simp] theorem State.modQueue_cu (c : CoreId) (q : Nat) (f : DmaQueue → DmaQueue) : (s.modQueue c q f).cu = s.cu := rfl
@[simp] theorem State.modQueue_ck (c : CoreId) (q : Nat) (f : DmaQueue → DmaQueue) : (s.modQueue c q f).ck = s.ck := rfl
@[simp] theorem State.modQueue_ms (c : CoreId) (q : Nat) (f : DmaQueue → DmaQueue) : (s.modQueue c q f).ms = s.ms := rfl
@[simp] theorem State.modQueue_fprint (c : CoreId) (q : Nat) (f : DmaQueue → DmaQueue) : (s.modQueue c q f).fprint = s.fprint := rfl
@[simp] theorem State.modQueue_reinLimit (c : CoreId) (q : Nat) (f : DmaQueue → DmaQueue) : (s.modQueue c q f).reinLimit = s.reinLimit := rfl
@[simp] theorem State.modQueue_sealed (c : CoreId) (q : Nat) (f : DmaQueue → DmaQueue) : (s.modQueue c q f).sealed = s.sealed := rfl
@[simp] theorem State.modQueue_svc (c : CoreId) (q : Nat) (f : DmaQueue → DmaQueue) : (s.modQueue c q f).svc = s.svc := rfl
@[simp] theorem State.modQueue_slot (c : CoreId) (q : Nat) (f : DmaQueue → DmaQueue) : (s.modQueue c q f).slot = s.slot := rfl
@[simp] theorem State.modQueue_pinc (c : CoreId) (q : Nat) (f : DmaQueue → DmaQueue) : (s.modQueue c q f).pinc = s.pinc := rfl
@[simp] theorem State.modQueue_errs (c : CoreId) (q : Nat) (f : DmaQueue → DmaQueue) : (s.modQueue c q f).errs = s.errs := rfl
@[simp] theorem State.modQueue_coreFaults (c : CoreId) (q : Nat) (f : DmaQueue → DmaQueue) : (s.modQueue c q f).coreFaults = s.coreFaults := rfl
@[simp] theorem State.modQueue_net (c : CoreId) (q : Nat) (f : DmaQueue → DmaQueue) : (s.modQueue c q f).net = s.net := rfl
@[simp] theorem State.modQueue_out (c : CoreId) (q : Nat) (f : DmaQueue → DmaQueue) : (s.modQueue c q f).out = s.out := rfl
@[simp] theorem State.modQueue_draws (c : CoreId) (q : Nat) (f : DmaQueue → DmaQueue) : (s.modQueue c q f).draws = s.draws := rfl
@[simp] theorem State.modQueue_pending (c : CoreId) (q : Nat) (f : DmaQueue → DmaQueue) : (s.modQueue c q f).pending = s.pending := rfl

/-! modDesc c q num f -/

@[simp] theorem State.modDesc_part (c : CoreId) (q : Nat) (num : BitVec 32) (f : Desc → Desc) : (s.modDesc c q num f).part = s.part := rfl
@[simp] theorem State.modDesc_tier (c : CoreId) (q : Nat) (num : BitVec 32) (f : Desc → Desc) : (s.modDesc c q num f).tier = s.tier := rfl
@[simp] theorem State.modDesc_pageMap (c : CoreId) (q : Nat) (num : BitVec 32) (f : Desc → Desc) : (s.modDesc c q num f).pageMap = s.pageMap := rfl
@[simp] theorem State.modDesc_sqStore (c : CoreId) (q : Nat) (num : BitVec 32) (f : Desc → Desc) : (s.modDesc c q num f).sqStore = s.sqStore := rfl
@[simp] theorem State.modDesc_tm (c : CoreId) (q : Nat) (num : BitVec 32) (f : Desc → Desc) : (s.modDesc c q num f).tm = s.tm := rfl
@[simp] theorem State.modDesc_tgs (c : CoreId) (q : Nat) (num : BitVec 32) (f : Desc → Desc) : (s.modDesc c q num f).tgs = s.tgs := rfl
@[simp] theorem State.modDesc_saddleQ (c : CoreId) (q : Nat) (num : BitVec 32) (f : Desc → Desc) : (s.modDesc c q num f).saddleQ = s.saddleQ := rfl
@[simp] theorem State.modDesc_pn (c : CoreId) (q : Nat) (num : BitVec 32) (f : Desc → Desc) : (s.modDesc c q num f).pn = s.pn := rfl
@[simp] theorem State.modDesc_fi (c : CoreId) (q : Nat) (num : BitVec 32) (f : Desc → Desc) : (s.modDesc c q num f).fi = s.fi := rfl
@[simp] theorem State.modDesc_hp (c : CoreId) (q : Nat) (num : BitVec 32) (f : Desc → Desc) : (s.modDesc c q num f).hp = s.hp := rfl
@[simp] theorem State.modDesc_ws (c : CoreId) (q : Nat) (num : BitVec 32) (f : Desc → Desc) : (s.modDesc c q num f).ws = s.ws := rfl
@[simp] theorem State.modDesc_prog (c : CoreId) (q : Nat) (num : BitVec 32) (f : Desc → Desc) : (s.modDesc c q num f).prog = s.prog := rfl
@[simp] theorem State.modDesc_fsvc (c : CoreId) (q : Nat) (num : BitVec 32) (f : Desc → Desc) : (s.modDesc c q num f).fsvc = s.fsvc := rfl
@[simp] theorem State.modDesc_cu (c : CoreId) (q : Nat) (num : BitVec 32) (f : Desc → Desc) : (s.modDesc c q num f).cu = s.cu := rfl
@[simp] theorem State.modDesc_ck (c : CoreId) (q : Nat) (num : BitVec 32) (f : Desc → Desc) : (s.modDesc c q num f).ck = s.ck := rfl
@[simp] theorem State.modDesc_ms (c : CoreId) (q : Nat) (num : BitVec 32) (f : Desc → Desc) : (s.modDesc c q num f).ms = s.ms := rfl
@[simp] theorem State.modDesc_fprint (c : CoreId) (q : Nat) (num : BitVec 32) (f : Desc → Desc) : (s.modDesc c q num f).fprint = s.fprint := rfl
@[simp] theorem State.modDesc_reinLimit (c : CoreId) (q : Nat) (num : BitVec 32) (f : Desc → Desc) : (s.modDesc c q num f).reinLimit = s.reinLimit := rfl
@[simp] theorem State.modDesc_sealed (c : CoreId) (q : Nat) (num : BitVec 32) (f : Desc → Desc) : (s.modDesc c q num f).sealed = s.sealed := rfl
@[simp] theorem State.modDesc_svc (c : CoreId) (q : Nat) (num : BitVec 32) (f : Desc → Desc) : (s.modDesc c q num f).svc = s.svc := rfl
@[simp] theorem State.modDesc_slot (c : CoreId) (q : Nat) (num : BitVec 32) (f : Desc → Desc) : (s.modDesc c q num f).slot = s.slot := rfl
@[simp] theorem State.modDesc_pinc (c : CoreId) (q : Nat) (num : BitVec 32) (f : Desc → Desc) : (s.modDesc c q num f).pinc = s.pinc := rfl
@[simp] theorem State.modDesc_errs (c : CoreId) (q : Nat) (num : BitVec 32) (f : Desc → Desc) : (s.modDesc c q num f).errs = s.errs := rfl
@[simp] theorem State.modDesc_coreFaults (c : CoreId) (q : Nat) (num : BitVec 32) (f : Desc → Desc) : (s.modDesc c q num f).coreFaults = s.coreFaults := rfl
@[simp] theorem State.modDesc_net (c : CoreId) (q : Nat) (num : BitVec 32) (f : Desc → Desc) : (s.modDesc c q num f).net = s.net := rfl
@[simp] theorem State.modDesc_out (c : CoreId) (q : Nat) (num : BitVec 32) (f : Desc → Desc) : (s.modDesc c q num f).out = s.out := rfl
@[simp] theorem State.modDesc_draws (c : CoreId) (q : Nat) (num : BitVec 32) (f : Desc → Desc) : (s.modDesc c q num f).draws = s.draws := rfl
@[simp] theorem State.modDesc_pending (c : CoreId) (q : Nat) (num : BitVec 32) (f : Desc → Desc) : (s.modDesc c q num f).pending = s.pending := rfl

/-! modWatch i f -/

@[simp] theorem State.modWatch_part (i : Nat) (f : Watch → Watch) : (s.modWatch i f).part = s.part := rfl
@[simp] theorem State.modWatch_cores (i : Nat) (f : Watch → Watch) : (s.modWatch i f).cores = s.cores := rfl
@[simp] theorem State.modWatch_tier (i : Nat) (f : Watch → Watch) : (s.modWatch i f).tier = s.tier := rfl
@[simp] theorem State.modWatch_pageMap (i : Nat) (f : Watch → Watch) : (s.modWatch i f).pageMap = s.pageMap := rfl
@[simp] theorem State.modWatch_sqStore (i : Nat) (f : Watch → Watch) : (s.modWatch i f).sqStore = s.sqStore := rfl
@[simp] theorem State.modWatch_tm (i : Nat) (f : Watch → Watch) : (s.modWatch i f).tm = s.tm := rfl
@[simp] theorem State.modWatch_tgs (i : Nat) (f : Watch → Watch) : (s.modWatch i f).tgs = s.tgs := rfl
@[simp] theorem State.modWatch_saddleQ (i : Nat) (f : Watch → Watch) : (s.modWatch i f).saddleQ = s.saddleQ := rfl
@[simp] theorem State.modWatch_pn (i : Nat) (f : Watch → Watch) : (s.modWatch i f).pn = s.pn := rfl
@[simp] theorem State.modWatch_fi (i : Nat) (f : Watch → Watch) : (s.modWatch i f).fi = s.fi := rfl
@[simp] theorem State.modWatch_hp (i : Nat) (f : Watch → Watch) : (s.modWatch i f).hp = s.hp := rfl
@[simp] theorem State.modWatch_ws (i : Nat) (f : Watch → Watch) : (s.modWatch i f).ws = s.ws := rfl
@[simp] theorem State.modWatch_prog (i : Nat) (f : Watch → Watch) : (s.modWatch i f).prog = s.prog := rfl
@[simp] theorem State.modWatch_fsvc (i : Nat) (f : Watch → Watch) : (s.modWatch i f).fsvc = s.fsvc := rfl
@[simp] theorem State.modWatch_ck (i : Nat) (f : Watch → Watch) : (s.modWatch i f).ck = s.ck := rfl
@[simp] theorem State.modWatch_ms (i : Nat) (f : Watch → Watch) : (s.modWatch i f).ms = s.ms := rfl
@[simp] theorem State.modWatch_fprint (i : Nat) (f : Watch → Watch) : (s.modWatch i f).fprint = s.fprint := rfl
@[simp] theorem State.modWatch_reinLimit (i : Nat) (f : Watch → Watch) : (s.modWatch i f).reinLimit = s.reinLimit := rfl
@[simp] theorem State.modWatch_sealed (i : Nat) (f : Watch → Watch) : (s.modWatch i f).sealed = s.sealed := rfl
@[simp] theorem State.modWatch_svc (i : Nat) (f : Watch → Watch) : (s.modWatch i f).svc = s.svc := rfl
@[simp] theorem State.modWatch_slot (i : Nat) (f : Watch → Watch) : (s.modWatch i f).slot = s.slot := rfl
@[simp] theorem State.modWatch_pinc (i : Nat) (f : Watch → Watch) : (s.modWatch i f).pinc = s.pinc := rfl
@[simp] theorem State.modWatch_errs (i : Nat) (f : Watch → Watch) : (s.modWatch i f).errs = s.errs := rfl
@[simp] theorem State.modWatch_coreFaults (i : Nat) (f : Watch → Watch) : (s.modWatch i f).coreFaults = s.coreFaults := rfl
@[simp] theorem State.modWatch_net (i : Nat) (f : Watch → Watch) : (s.modWatch i f).net = s.net := rfl
@[simp] theorem State.modWatch_out (i : Nat) (f : Watch → Watch) : (s.modWatch i f).out = s.out := rfl
@[simp] theorem State.modWatch_draws (i : Nat) (f : Watch → Watch) : (s.modWatch i f).draws = s.draws := rfl
@[simp] theorem State.modWatch_pending (i : Nat) (f : Watch → Watch) : (s.modWatch i f).pending = s.pending := rfl

/-! ### The cores after an update of one core -/

@[simp] theorem State.core_setCore_same (c : CoreId) (k : CoreSt) : (s.setCore c k).core c = k := by
  simp [State.core, State.setCore]

theorem State.core_setCore_ne {c d : CoreId} (h : d ≠ c) (k : CoreSt) : (s.setCore c k).core d = s.core d := by
  have : c.toNat ≠ d.toNat := fun e => h (BitVec.eq_of_toNat_eq e.symm)
  simp [State.core, State.setCore, this]

@[simp] theorem State.core_modCore_same (c : CoreId) (f : CoreSt → CoreSt) : (s.modCore c f).core c = f (s.core c) := by
  simp [State.modCore]

theorem State.core_modCore_ne {c d : CoreId} (h : d ≠ c) (f : CoreSt → CoreSt) : (s.modCore c f).core d = s.core d :=
  State.core_setCore_ne s h _

@[simp] theorem State.core_emit (o : Out) (c : CoreId) : (s.emit o).core c = s.core c := rfl

@[simp] theorem State.setCore_setCore (c : CoreId) (k l : CoreSt) : (s.setCore c k).setCore c l = s.setCore c l := by
  simp [State.setCore]

@[simp] theorem State.modCore_setCore (c : CoreId) (k : CoreSt) (f : CoreSt → CoreSt) :
    (s.setCore c k).modCore c f = s.setCore c (f k) := by
  simp [State.modCore]

theorem State.modCore_eq (c : CoreId) (f : CoreSt → CoreSt) : s.modCore c f = s.setCore c (f (s.core c)) := rfl

@[simp] theorem State.setCore_core (c : CoreId) : s.setCore c (s.core c) = s := by
  simp [State.setCore, State.core]

end Sys2Proof.Machine
end

