-- ==== Sys2Proof/Laws/Cycles.lean ====
section
/-! SUPPORT. What the passing of a-cycles does to a core: what its counts become, what a core keeps at which nothing is timed, and where no
time passes. -/

namespace Sys2Proof.Machine

/-- `n` a-cycles are counted by the core, and by SQ_CYCLE while it is in RUN (R148). -/
theorem CoreSt.bulk_counts (k : CoreSt) (n : Nat) :
    (k.bulk n).sq.clk = k.sq.clk + n
      ∧ (k.bulk n).sq.cycle = (if k.sq.st = .run then k.sq.cycle + BitVec.ofNat 64 n else k.sq.cycle) := ⟨rfl, rfl⟩

@[simp] theorem CoreSt.bulk_clk (k : CoreSt) (n : Nat) : (k.bulk n).sq.clk = k.sq.clk + n := rfl
@[simp] theorem CoreSt.bulk_st (k : CoreSt) (n : Nat) : (k.bulk n).sq.st = k.sq.st := rfl
@[simp] theorem CoreSt.bulk_pc (k : CoreSt) (n : Nat) : (k.bulk n).sq.pc = k.sq.pc := rfl
@[simp] theorem CoreSt.bulk_fault (k : CoreSt) (n : Nat) : (k.bulk n).sq.fault = k.sq.fault := rfl
@[simp] theorem CoreSt.bulk_s (k : CoreSt) (n : Nat) : (k.bulk n).sq.s = k.sq.s := rfl
@[simp] theorem CoreSt.bulk_a (k : CoreSt) (n : Nat) : (k.bulk n).sq.a = k.sq.a := rfl
@[simp] theorem CoreSt.bulk_mem (k : CoreSt) (n : Nat) : (k.bulk n).cm.mem = k.cm.mem := rfl
@[simp] theorem CoreSt.bulk_asks (k : CoreSt) (n : Nat) : (k.bulk n).cm.asks = k.cm.asks := rfl
@[simp] theorem CoreSt.bulk_asyncBuf (k : CoreSt) (n : Nat) : (k.bulk n).cm.asyncBuf = k.cm.asyncBuf := rfl
@[simp] theorem CoreSt.bulk_acc (k : CoreSt) (n : Nat) : (k.bulk n).me.acc = k.me.acc := rfl
@[simp] theorem CoreSt.bulk_active (k : CoreSt) (n : Nat) : (k.bulk n).me.active = k.me.active := rfl
@[simp] theorem CoreSt.bulk_stirrup (k : CoreSt) (n : Nat) : (k.bulk n).me.stirrup = k.me.stirrup := rfl
@[simp] theorem CoreSt.bulk_dma (k : CoreSt) (n : Nat) : (k.bulk n).dma = k.dma := rfl
@[simp] theorem CoreSt.bulk_cq (k : CoreSt) (n : Nat) : (k.bulk n).cq = k.cq := rfl

@[simp] theorem CoreSt.bulk_vob (k : CoreSt) (n : Nat) : (k.bulk n).ve.vob = k.ve.vob := by
  unfold bulk
  dsimp only
  split <;> rfl

@[simp] theorem CoreSt.bulk_flights (k : CoreSt) (n : Nat) : (k.bulk n).ve.flights = k.ve.flights := by
  unfold bulk
  dsimp only
  split <;> rfl

/-- Time leaves nothing timed at a core at which nothing is. -/
@[simp] theorem CoreSt.bulk_still (k : CoreSt) (n : Nat) : (k.bulk n).still = k.still := by
  unfold still
  rw [bulk_flights]
  rfl

@[simp] theorem State.pass_zero (s : State) (c : CoreId) : s.pass c 0 = s := rfl

/-- In a fail-stop, and in a step hold, no a-cycle passes (R375, R432). -/
theorem State.pass_of_stopped {s : State} (h : (s.cu.failstop || s.ck.hold.isSome) = true) (c : CoreId) (n : Nat) : s.pass c n = s := by
  cases n with
  | zero => rfl
  | succ n =>
    simp only [pass]
    rw [if_pos (by simpa using h)]

/-- At a core at which nothing is timed, only what counts a-cycles changes. -/
theorem State.pass_of_still {s : State} {c : CoreId} (h : s.cu.failstop = false) (hh : s.ck.hold = none) (hs : s.still c = true) (n : Nat) :
    s.pass c (n + 1) = s.modCore c fun k => k.sweepDma.bulk (n + 1) := by
  simp [pass, h, hh, hs]

/-- Elsewhere the present a-cycle runs, and the others follow. -/
theorem State.pass_succ {s : State} {c : CoreId} (h : s.cu.failstop = false) (hh : s.ck.hold = none) (hs : s.still c = false) (n : Nat) :
    s.pass c (n + 1) = (s.tick c).pass c n := by
  simp [pass, h, hh, hs]

/-- Where no access asks and no guard waits, arbitration serves and holds nothing. -/
theorem CoreSt.arbitrate_of_none {k : CoreSt} (h : k.cm.asks = []) (hg : k.cm.guardAt = none) : k.arbitrate = (k, [], []) := by
  have hk : k.guardTakes = k := by
    unfold guardTakes
    rw [hg]
  have hd : k.due = [] := by
    unfold due
    rw [h]
    rfl
  unfold arbitrate
  dsimp only
  rw [hk, hd]
  rfl

@[simp] theorem CoreSt.post_nil (k : CoreSt) : k.post [] = k := rfl

@[simp] theorem State.ask_nil (s : State) (c : CoreId) : s.ask c [] = s := by
  unfold State.ask State.modCore
  dsimp only
  rw [CoreSt.post_nil, State.setCore_core]

end Sys2Proof.Machine
end

