-- ==== Sys2Proof/Laws/Issue.lean ====
section
/-! SUPPORT. What the presentation of a word can do: it waits, it is held, it faults, or its bundle issues. -/

namespace Sys2Proof.Machine

/-- A bundle of one word. -/
theorem issueBundle_one (s : State) (c : CoreId) (w : SlotWord) :
    issueBundle s c [w]
      = s.issued c (branchNext s c (s.core c).sq.pc.toNat (branchWord [w])) (slotEffect s c w) (slotLate s c w)
          (slotAsks s c w) := by
  obtain ⟨slot, opcode, bits⟩ := w
  have h : slot = 0 ∨ slot = 1 ∨ slot = 2 ∨ slot = 3 ∨ slot = 4 ∨ slot = 5 ∨ slot = 6 ∨ slot = 7 := by
    revert slot; decide
  rcases h with rfl | rfl | rfl | rfl | rfl | rfl | rfl | rfl <;> rfl

/-- A bundle that leaves nothing timed at its core: only counts of a-cycles move while it issues. -/
theorem issued_of_still {s : State} {c : CoreId} {n : NextPc} {effect late : State → State}
    (h : (effect (s.modCore c CoreSt.dispatched)).cu.failstop = false) (hh : (effect (s.modCore c CoreSt.dispatched)).ck.hold = none)
    (hs : (effect (s.modCore c CoreSt.dispatched)).still c = true) :
    s.issued c n effect late = (late (((effect (s.modCore c CoreSt.dispatched)).modCore c fun k => k.sweepDma.bulk 1).modCore c
      (·.advanceTo n))).pass c n.idle := by
  unfold State.issued
  rw [State.ask_nil, State.pass_of_still h hh hs 0]

theorem checked_of_none {s : State} {st : ErrStore} {c : CoreId} {lo hi : Nat} (h : errsIn s st c lo hi = [])
    (k : State → State) : checked s st c lo hi k = k s := by
  simp [checked, h]

theorem cmChecked_of_none {s : State} {c : CoreId} {a len : Nat}
    (h : errsIn s .cm c (a / 256 * 256) (ceilTo (a + len) 256) = []) (k : State → State) : cmChecked s c a len k = k s :=
  checked_of_none h k

theorem live_of {s : State} (h : s.cu.failstop = false) (k : Res) : live s k = k := by simp [live, h]

theorem live_stopped {s : State} (h : s.cu.failstop = true) (k : Res) : live s k = .next s := by simp [live, h]

/-- A C-slot word whose unit does not hold it has no hold of R233 or R244. -/
theorem channelHold_none {s : State} {c : CoreId} {w : SlotWord} (h : unitHolds s c w = []) :
    (if w.active ∧ w.slot = 7 then (channelHold (s.core c) w.opcode.toNat w.bits).map fun h => (h, cIdx w.opcode.toNat w.bits)
      else none) = none := by
  by_cases hw : w.active = true ∧ w.slot = 7
  · obtain ⟨ha, hs⟩ := hw
    simp only [unitHolds, ha, hs] at h
    simp only [ha, hs, and_self, if_true]
    revert h
    cases channelHold (s.core c) w.opcode.toNat w.bits with
    | none => intro _; rfl
    | some x => intro h; simp at h
  · exact if_neg hw

/-- A word that issues alone is issued. -/
theorem issue_alone {op : BitVec 8} {i : Issue} {s : State} (h : IssuesAlone op i s) :
    issue op i s = .next (issueBundle (s.padded op i) i.core [i.word op]) := by
  obtain ⟨⟨hf, ⟨hs, hh⟩, hr, ht⟩, hb, hl, hfa, h1, h2, h3, h4⟩ := h
  unfold issue
  rw [hf, live_of hs]
  simp only [Bool.false_eq_true, if_false]
  congr 1
  have hw : ({ slot := i.slot, opcode := op, bits := i.bits } : SlotWord) = i.word op := rfl
  unfold presentWord
  simp only [hr, hh, Option.isSome_none, ne_eq, not_true_eq_false, Bool.false_eq_true, or_self, if_false, Sq.joined, hb, List.filter_nil,
    List.nil_append, hl, Bool.not_true, ht, hw]
  unfold present
  have hp : (if (bundleFaults s i.core [i.word op]).isEmpty = true then
      [i.word op].foldl (fun s w => if w.active ∧ w.slot = 7 then channelPad s i.core w.opcode.toNat w.bits else s) s
      else s) = s.padded op i := by
    rw [hfa]; rfl
  simp only [hp]
  have hc := channelHold_none h3
  simp only [hfa, List.any_nil, Bool.not_false, true_and, List.findSome?_cons, hc, List.findSome?_nil, List.flatMap_cons,
    List.flatMap_nil, List.filter_cons, List.filter_nil, Bool.true_or, if_true, h1, h2, h3, List.append_nil, List.isEmpty_nil,
    Bool.not_true, Bool.false_eq_true, if_false, Option.filter_none]
  exact checked_of_none h4 _

/-- A word that issues alone leaves what `State.issued` says. -/
theorem issue_alone_eq {op : BitVec 8} {i : Issue} {s : State} (h : IssuesAlone op i s) :
    issue op i s = .next ((s.padded op i).issued i.core
      (branchNext (s.padded op i) i.core ((s.padded op i).core i.core).sq.pc.toNat (branchWord [i.word op]))
      (slotEffect (s.padded op i) i.core (i.word op)) (slotLate (s.padded op i) i.core (i.word op))
      (slotAsks (s.padded op i) i.core (i.word op))) := by
  rw [issue_alone h, issueBundle_one]

/-! ### The slot of a word that issues alone -/

theorem slot_cases (x : BitVec 3) : x = 0 ∨ x = 1 ∨ x = 2 ∨ x = 3 ∨ x = 4 ∨ x = 5 ∨ x = 6 ∨ x = 7 := by
  revert x; decide

/-- The word has no fault. -/
theorem IssuesAlone.sound {op : BitVec 8} {i : Issue} {s : State} (h : IssuesAlone op i s) :
    slotFault s i.core [i.word op] (i.word op) = none := by
  have hf := h.2.2.2.1
  unfold bundleFaults at hf
  rw [List.filterMap_eq_nil_iff] at hf
  have := hf i.slot.toNat (by simp; omega)
  simp only [List.find?_cons, Issue.word, beq_self_eq_true] at this
  unfold Issue.word
  cases hh : slotFault s i.core [{ slot := i.slot, opcode := op, bits := i.bits }]
      { slot := i.slot, opcode := op, bits := i.bits } with
  | none => rfl
  | some f => simp [hh] at this

/-- The word reaches its unit. -/
theorem IssuesAlone.active {op : BitVec 8} {i : Issue} {s : State} (h : IssuesAlone op i s) (hop : op.toNat ≠ 0) :
    (i.word op).active = true := by
  by_contra hn
  have hf := h.sound
  have hop' : (i.word op).opcode.toNat ≠ 0 := hop
  rw [Bool.not_eq_true] at hn
  simp [slotFault, hop'] at hf
  simp [hn] at hf

/-- Its opcode is one that its slot accepts. -/
theorem slotRange_of_active {op : BitVec 8} {i : Issue} (h : (i.word op).active = true) :
    (slotRange i.slot.toNat).1 ≤ op.toNat ∧ op.toNat ≤ (slotRange i.slot.toNat).2 := by
  simp only [SlotWord.active, Issue.word, Bool.and_eq_true] at h
  exact of_decide_eq_true h.2

theorem padded_of_slot {op : BitVec 8} {i : Issue} {s : State} (h : i.slot ≠ 7) : s.padded op i = s :=
  if_neg fun e => h e.2

theorem slotLate_of_slot {s : State} {c : CoreId} {op : BitVec 8} {i : Issue} (h : i.slot ≠ 7) :
    slotLate s c (i.word op) = id := by
  funext t
  exact if_neg fun e => h e.2

theorem branchWord_of_slot {op : BitVec 8} {i : Issue} (h : i.slot ≠ 2) : branchWord [i.word op] = none := by
  unfold branchWord
  rw [List.find?_eq_none]
  intro w hw
  rw [List.mem_singleton.1 hw]
  simp only [Issue.word, Bool.and_eq_true, beq_iff_eq, not_and]
  exact fun e => absurd e h

/-- Outside the B and C slots a word that issues alone has its slot's effect and the next bundle follows. -/
theorem issue_plain {op : BitVec 8} {i : Issue} {s : State} (h : IssuesAlone op i s) (h2 : i.slot ≠ 2) (h7 : i.slot ≠ 7) :
    issue op i s = .next (s.issued i.core (s.after i.core) (slotEffect s i.core (i.word op)) id
      (slotAsks s i.core (i.word op))) := by
  rw [issue_alone_eq h, padded_of_slot h7, slotLate_of_slot h7, branchWord_of_slot h2]; rfl

/-- The slot of a scalar instruction. -/
theorem scalar_slot {op : BitVec 8} {i : Issue} {s : State} (h : IssuesAlone op i s) (ha : 1 ≤ op.toNat) (hb : op.toNat ≤ 0x1F) :
    i.slot = 0 ∨ i.slot = 1 := by
  have := slotRange_of_active (h.active (by omega))
  rcases slot_cases i.slot with e | e | e | e | e | e | e | e <;> rw [e] at this <;> simp [slotRange] at this <;>
    first | exact Or.inl e | exact Or.inr e | omega

theorem branch_slot {op : BitVec 8} {i : Issue} {s : State} (h : IssuesAlone op i s) (ha : 0x80 ≤ op.toNat)
    (hb : op.toNat ≤ 0x9F) : i.slot = 2 := by
  have := slotRange_of_active (h.active (by omega))
  rcases slot_cases i.slot with e | e | e | e | e | e | e | e <;> rw [e] at this <;> simp [slotRange] at this <;>
    first | exact e | omega

theorem matrix_slot {op : BitVec 8} {i : Issue} {s : State} (h : IssuesAlone op i s) (ha : 0x20 ≤ op.toNat)
    (hb : op.toNat ≤ 0x2F) : i.slot = 3 := by
  have := slotRange_of_active (h.active (by omega))
  rcases slot_cases i.slot with e | e | e | e | e | e | e | e <;> rw [e] at this <;> simp [slotRange] at this <;>
    first | exact e | omega

theorem vector_slot {op : BitVec 8} {i : Issue} {s : State} (h : IssuesAlone op i s) (ha : 0x40 ≤ op.toNat)
    (hb : op.toNat ≤ 0x7F) : i.slot = 4 ∨ i.slot = 5 := by
  have := slotRange_of_active (h.active (by omega))
  rcases slot_cases i.slot with e | e | e | e | e | e | e | e <;> rw [e] at this <;> simp [slotRange] at this <;>
    first | exact Or.inl e | exact Or.inr e | omega

theorem dma_slot {op : BitVec 8} {i : Issue} {s : State} (h : IssuesAlone op i s) (ha : 0x30 ≤ op.toNat)
    (hb : op.toNat ≤ 0x3F) : i.slot = 6 := by
  have := slotRange_of_active (h.active (by omega))
  rcases slot_cases i.slot with e | e | e | e | e | e | e | e <;> rw [e] at this <;> simp [slotRange] at this <;>
    first | exact e | omega

theorem channel_slot {op : BitVec 8} {i : Issue} {s : State} (h : IssuesAlone op i s) (ha : 0xA0 ≤ op.toNat)
    (hb : op.toNat ≤ 0xBF) : i.slot = 7 := by
  have := slotRange_of_active (h.active (by omega))
  rcases slot_cases i.slot with e | e | e | e | e | e | e | e <;> rw [e] at this <;> simp [slotRange] at this <;>
    first | exact e | omega

/-! ### The effect of a word by its slot -/

theorem slotEffect_scalar {s : State} {c : CoreId} {op : BitVec 8} {i : Issue} (h : (i.word op).active = true)
    (hs : i.slot = 0 ∨ i.slot = 1) : slotEffect s c (i.word op) = scalarEffect s c op.toNat i.bits := by
  funext t
  unfold slotEffect
  rw [h]
  rcases hs with e | e <;> simp [Issue.word, e]

theorem slotEffect_branch {s : State} {c : CoreId} {op : BitVec 8} {i : Issue} (h : (i.word op).active = true)
    (hs : i.slot = 2) : slotEffect s c (i.word op) = branchEffect s c op.toNat i.bits := by
  funext t
  unfold slotEffect
  rw [h]
  simp [Issue.word, hs]

theorem slotEffect_vector {s : State} {c : CoreId} {op : BitVec 8} {i : Issue} (h : (i.word op).active = true)
    (hs : i.slot = 4 ∨ i.slot = 5) : slotEffect s c (i.word op) = vectorEffect s c op.toNat i.bits := by
  funext t
  unfold slotEffect
  rw [h]
  rcases hs with e | e <;> simp [Issue.word, e]

theorem slotEffect_channel {s : State} {c : CoreId} {op : BitVec 8} {i : Issue} (h : (i.word op).active = true)
    (hs : i.slot = 7) : slotEffect s c (i.word op) = channelEffect s c op.toNat i.bits := by
  funext t
  unfold slotEffect
  rw [h]
  simp [Issue.word, hs]

theorem slotAsks_scalar {s : State} {c : CoreId} {op : BitVec 8} {i : Issue} (h : (i.word op).active = true)
    (hs : i.slot = 0 ∨ i.slot = 1) : slotAsks s c (i.word op) = scalarAsks s c i.slot.toNat op.toNat i.bits := by
  unfold slotAsks
  rw [h]
  rcases hs with e | e <;> simp [Issue.word, e]

theorem slotAsks_branch {s : State} {c : CoreId} {op : BitVec 8} {i : Issue} (hs : i.slot = 2) :
    slotAsks s c (i.word op) = [] := by
  unfold slotAsks
  simp [Issue.word, hs]

theorem slotAsks_vector {s : State} {c : CoreId} {op : BitVec 8} {i : Issue} (h : (i.word op).active = true)
    (hs : i.slot = 4 ∨ i.slot = 5) : slotAsks s c (i.word op) = moveAsks (s.core c) op.toNat i.bits := by
  have hr := slotRange_of_active h
  unfold slotAsks
  rw [h]
  rcases hs with e | e
  · have hm : op.toNat ≠ 0x7C ∧ op.toNat ≠ 0x7D := by rw [e] at hr; simp [slotRange] at hr; omega
    simp [Issue.word, e, moveAsks, hm]
  · simp [Issue.word, e]

theorem slotAsks_channel {s : State} {c : CoreId} {op : BitVec 8} {i : Issue} (h : (i.word op).active = true)
    (hs : i.slot = 7) : slotAsks s c (i.word op) = channelAsks s c op.toNat i.bits := by
  unfold slotAsks
  rw [h]
  simp [Issue.word, hs]

/-- A scalar word that issues alone. -/
theorem issue_scalar {op : BitVec 8} {i : Issue} {s : State} (h : IssuesAlone op i s) (ha : 1 ≤ op.toNat)
    (hb : op.toNat ≤ 0x1F) :
    issue op i s = .next (s.issued i.core (s.after i.core) (scalarEffect s i.core op.toNat i.bits) id
      (scalarAsks s i.core i.slot.toNat op.toNat i.bits)) := by
  have hs := scalar_slot h ha hb
  rw [issue_plain h (by rcases hs with e | e <;> rw [e] <;> decide) (by rcases hs with e | e <;> rw [e] <;> decide),
    slotEffect_scalar (h.active (by omega)) hs, slotAsks_scalar (h.active (by omega)) hs]

/-- A vector word that issues alone. -/
theorem issue_vector {op : BitVec 8} {i : Issue} {s : State} (h : IssuesAlone op i s) (ha : 0x40 ≤ op.toNat)
    (hb : op.toNat ≤ 0x7F) :
    issue op i s = .next (s.issued i.core (s.after i.core) (vectorEffect s i.core op.toNat i.bits) id
      (moveAsks (s.core i.core) op.toNat i.bits)) := by
  have hs := vector_slot h ha hb
  rw [issue_plain h (by rcases hs with e | e <;> rw [e] <;> decide) (by rcases hs with e | e <;> rw [e] <;> decide),
    slotEffect_vector (h.active (by omega)) hs, slotAsks_vector (h.active (by omega)) hs]

/-- A B-slot word that issues alone. -/
theorem issue_branch {op : BitVec 8} {i : Issue} {s : State} (h : IssuesAlone op i s) (ha : 0x80 ≤ op.toNat)
    (hb : op.toNat ≤ 0x9F) :
    issue op i s = .next (s.issued i.core
      (branchNext s i.core (s.core i.core).sq.pc.toNat (some (i.word op))) (branchEffect s i.core op.toNat i.bits) id) := by
  have hs := branch_slot h ha hb
  have h7 : i.slot ≠ 7 := by rw [hs]; decide
  have hact := h.active (by omega)
  have hw : branchWord [i.word op] = some (i.word op) := by
    unfold branchWord
    rw [List.find?_cons]
    have : ((i.word op).slot == 2) = true := by simp [Issue.word, hs]
    rw [this, hact]; rfl
  rw [issue_alone_eq h, padded_of_slot h7, slotLate_of_slot h7, hw, slotEffect_branch hact hs, slotAsks_branch hs]

/-- A C-slot word that issues alone. -/
theorem issue_channel {op : BitVec 8} {i : Issue} {s : State} (h : IssuesAlone op i s) (ha : 0xA0 ≤ op.toNat)
    (hb : op.toNat ≤ 0xBF) :
    issue op i s = .next ((s.padded op i).issued i.core ((s.padded op i).after i.core)
      (channelEffect (s.padded op i) i.core op.toNat i.bits) (channelLate (s.padded op i) i.core op.toNat i.bits)
      (channelAsks (s.padded op i) i.core op.toNat i.bits)) := by
  have hs := channel_slot h ha hb
  have hact := h.active (by omega)
  have h2 : i.slot ≠ 2 := by rw [hs]; decide
  have hl : slotLate (s.padded op i) i.core (i.word op) = channelLate (s.padded op i) i.core op.toNat i.bits := by
    funext t
    exact if_pos ⟨hact, hs⟩
  rw [issue_alone_eq h, branchWord_of_slot h2, slotEffect_channel hact hs, slotAsks_channel hact hs, hl]; rfl

/-- Only CH.SEND pads. -/
theorem padded_of_op {op : BitVec 8} {i : Issue} {s : State} (h : op.toNat ≠ 0xA2) : s.padded op i = s := by
  unfold State.padded
  split
  · exact if_pos h
  · rfl

end Sys2Proof.Machine
end

