-- ==== Sys2Proof/Laws/Memory.lean ====
section
/-! SUPPORT. Byte memories: a write is read back, leaves every other byte alone, and keeps the canonical form. -/

namespace Sys2Proof.Machine

theorem cellsFrom_addr {a : Nat} {bs : List Byte} {c : Host.Cell} (h : c ∈ cellsFrom a bs) :
    a ≤ c.1 ∧ c.1 < a + bs.length ∧ c.2 ≠ 0 := by
  induction bs generalizing a with
  | nil => simp [cellsFrom] at h
  | cons b bs ih =>
    unfold cellsFrom at h
    split at h
    · obtain ⟨h1, h2, h3⟩ := ih h
      exact ⟨by omega, by simp only [List.length_cons]; omega, h3⟩
    · simp only [List.mem_cons] at h
      rcases h with rfl | h
      · simp_all
      · obtain ⟨h1, h2, h3⟩ := ih h
        exact ⟨by omega, by simp only [List.length_cons]; omega, h3⟩

theorem cellsFrom_sorted (a : Nat) (bs : List Byte) : (cellsFrom a bs).Pairwise (fun x y => x.1 < y.1) := by
  induction bs generalizing a with
  | nil => simp [cellsFrom]
  | cons b bs ih =>
    unfold cellsFrom
    split
    · exact ih _
    · refine List.pairwise_cons.2 ⟨fun y hy => ?_, ih _⟩
      have := (cellsFrom_addr hy).1
      simp only
      omega

theorem lookup_eq_none_of_addr {m : Mem} {x : Nat} (h : ∀ c ∈ m, c.1 ≠ x) : m.lookup x = none := by
  induction m with
  | nil => rfl
  | cons c m ih =>
    have hc : (x == c.1) = false := by simpa using fun e => h c (by simp) e.symm
    rw [List.lookup_cons, hc]
    exact ih fun d hd => h d (by simp [hd])

theorem lookup_cellsFrom (a : Nat) (bs : List Byte) (x : Nat) :
    ((cellsFrom a bs).lookup x).getD 0 = if a ≤ x ∧ x < a + bs.length then bs.getD (x - a) 0 else 0 := by
  induction bs generalizing a with
  | nil => simp [cellsFrom]
  | cons b bs ih =>
    have tail : x ≠ a → ((cellsFrom (a + 1) bs).lookup x).getD 0
        = if a ≤ x ∧ x < a + (b :: bs).length then (b :: bs).getD (x - a) 0 else 0 := by
      intro hx
      rw [ih (a + 1)]
      by_cases h : a + 1 ≤ x ∧ x < a + 1 + bs.length
      · have h' : a ≤ x ∧ x < a + (b :: bs).length := by simp only [List.length_cons]; omega
        obtain ⟨k, hk⟩ : ∃ k, x - a = k + 1 := ⟨x - a - 1, by omega⟩
        have hk' : x - (a + 1) = k := by omega
        simp only [h, h', and_self, if_true, hk, hk', List.getD_cons_succ]
      · have h' : ¬(a ≤ x ∧ x < a + (b :: bs).length) := by simp only [List.length_cons]; omega
        simp only [h, h', if_false]
    by_cases hx : x = a
    · subst hx
      have hlast : ((cellsFrom (x + 1) bs).lookup x) = none :=
        lookup_eq_none_of_addr fun c hc => by have := (cellsFrom_addr hc).1; omega
      unfold cellsFrom
      split
      · next hb => simp [hlast, hb]
      · simp
    · unfold cellsFrom
      split
      · exact tail hx
      · have : (x == a) = false := by simpa using hx
        rw [List.lookup_cons, this]
        exact tail hx

theorem lookup_filter_of_pos {m : Mem} {p : Nat → Bool} {x : Nat} (h : p x = true) :
    (m.filter fun c => p c.1).lookup x = m.lookup x := by
  induction m with
  | nil => rfl
  | cons c m ih =>
    obtain ⟨y, v⟩ := c
    by_cases hc : x = y
    · subst hc; simp [h]
    · have hb : (x == y) = false := by simpa using hc
      by_cases hp : p y = true
      · rw [List.filter_cons_of_pos (by simpa using hp), List.lookup_cons, List.lookup_cons, hb, ih]
      · rw [List.filter_cons_of_neg (by simpa using hp), List.lookup_cons, hb, ih]

theorem lookup_filter_of_neg {m : Mem} {p : Nat → Bool} {x : Nat} (h : p x = false) :
    (m.filter fun c => p c.1).lookup x = none :=
  lookup_eq_none_of_addr fun c hc e => by
    simp only [List.mem_filter] at hc
    rw [e, h] at hc
    exact absurd hc.2 (by simp)

theorem lookup_append (m n : Mem) (x : Nat) : (m ++ n).lookup x = (m.lookup x).or (n.lookup x) := by
  induction m with
  | nil => simp
  | cons c m ih =>
    obtain ⟨y, v⟩ := c
    rw [List.cons_append, List.lookup_cons, List.lookup_cons]
    cases hc : x == y
    · exact ih
    · rfl

/-- A written byte is read back, and every other byte is as before. -/
theorem Mem.get_write (m : Mem) (a : Nat) (bs : List Byte) (x : Nat) :
    Mem.get (Mem.write m a bs) x = if a ≤ x ∧ x < a + bs.length then bs.getD (x - a) 0 else Mem.get m x := by
  have low (h : x < a) : (m.filter fun c => decide (c.1 < a)).lookup x = m.lookup x :=
    lookup_filter_of_pos (p := fun n => decide (n < a)) (by simpa using h)
  have low' (h : ¬x < a) : (m.filter fun c => decide (c.1 < a)).lookup x = none :=
    lookup_filter_of_neg (p := fun n => decide (n < a)) (by simpa using h)
  have high (h : a + bs.length ≤ x) : (m.filter fun c => decide (a + bs.length ≤ c.1)).lookup x = m.lookup x :=
    lookup_filter_of_pos (p := fun n => decide (a + bs.length ≤ n)) (by simpa using h)
  have high' (h : ¬a + bs.length ≤ x) : (m.filter fun c => decide (a + bs.length ≤ c.1)).lookup x = none :=
    lookup_filter_of_neg (p := fun n => decide (a + bs.length ≤ n)) (by simpa using h)
  have mid := lookup_cellsFrom a bs x
  unfold Mem.get Mem.write
  rw [lookup_append, lookup_append]
  by_cases h1 : x < a
  · have hm : (cellsFrom a bs).lookup x = none :=
      lookup_eq_none_of_addr fun c hc => by have := (cellsFrom_addr hc).1; omega
    rw [low h1, hm, high' (by omega)]
    have : ¬(a ≤ x ∧ x < a + bs.length) := by omega
    simp [this]
  · rw [low' h1]
    by_cases h2 : a + bs.length ≤ x
    · have hm : (cellsFrom a bs).lookup x = none :=
        lookup_eq_none_of_addr fun c hc => by have := (cellsFrom_addr hc).2.1; omega
      rw [hm, high h2]
      have : ¬(a ≤ x ∧ x < a + bs.length) := by omega
      simp [this]
    · rw [high' h2]
      have : a ≤ x ∧ x < a + bs.length := by omega
      simpa [this] using mid

theorem Mem.get_write_of_lt {m : Mem} {a : Nat} {bs : List Byte} {x : Nat} (h : x < a) :
    Mem.get (Mem.write m a bs) x = Mem.get m x := by
  rw [Mem.get_write, if_neg (by omega)]

theorem Mem.get_write_of_ge {m : Mem} {a : Nat} {bs : List Byte} {x : Nat} (h : a + bs.length ≤ x) :
    Mem.get (Mem.write m a bs) x = Mem.get m x := by
  rw [Mem.get_write, if_neg (by omega)]

/-- Bytes written are read back. -/
theorem Mem.read_write_same (m : Mem) (a : Nat) (bs : List Byte) : Mem.read (Mem.write m a bs) a bs.length = bs := by
  apply List.ext_getElem
  · simp [Mem.read]
  · intro i h1 h2
    simp only [Mem.read, List.getElem_map, List.getElem_range, Mem.get_write]
    rw [if_pos (by omega), Nat.add_sub_cancel_left, List.getD_eq_getElem _ _ h2]

/-- Every write keeps the canonical form. -/
theorem Mem.write_wf {m : Mem} (h : Mem.wf m) (a : Nat) (bs : List Byte) : Mem.wf (Mem.write m a bs) := by
  obtain ⟨hs, hz⟩ := h
  unfold Mem.write
  refine ⟨?_, ?_⟩
  · refine List.pairwise_append.2 ⟨List.pairwise_append.2 ⟨hs.filter _, cellsFrom_sorted _ _, ?_⟩, hs.filter _, ?_⟩
    · intro x hx y hy
      have h1 : x.1 < a := by simpa using (List.mem_filter.1 hx).2
      have h2 := (cellsFrom_addr hy).1
      omega
    · intro x hx y hy
      have h2 : a + bs.length ≤ y.1 := by simpa using (List.mem_filter.1 hy).2
      rcases List.mem_append.1 hx with hx | hx
      · have h1 : x.1 < a := by simpa using (List.mem_filter.1 hx).2
        omega
      · have h1 := (cellsFrom_addr hx).2.1
        omega
  · intro c hc
    rcases List.mem_append.1 hc with hc | hc
    · rcases List.mem_append.1 hc with hc | hc
      · exact hz c (List.mem_filter.1 hc).1
      · exact (cellsFrom_addr hc).2.2
    · exact hz c (List.mem_filter.1 hc).1

theorem Mem.setWord_wf {m : Mem} (h : Mem.wf m) (a : Nat) (w : Word) : Mem.wf (Mem.setWord m a w) :=
  Mem.write_wf h a _

theorem Mem.wf_nil : Mem.wf [] := by simp [Mem.wf]

/-- A fold of writes keeps the canonical form. -/
theorem Mem.foldl_write_wf {α : Type} (xs : List α) (f : α → Nat) (g : α → List Byte) {m : Mem} (h : Mem.wf m) :
    Mem.wf (xs.foldl (fun m x => Mem.write m (f x) (g x)) m) := by
  induction xs generalizing m with
  | nil => exact h
  | cons x xs ih => exact ih (Mem.write_wf h _ _)

@[simp] theorem leBytes_length (n v : Nat) : (leBytes n v).length = n := by simp [leBytes]

@[simp] theorem wordBytes_length (w : Word) : (wordBytes w).length = 8 := by simp [wordBytes]

theorem ofLe_leBytes (n v : Nat) : ofLe (leBytes n v) = v % 256 ^ n := by
  induction n generalizing v with
  | zero => simp [leBytes, ofLe, Nat.mod_one]
  | succ n ih =>
    have : leBytes (n + 1) v = BitVec.ofNat 8 v :: leBytes n (v / 256) := by
      unfold leBytes
      rw [List.range_succ_eq_map, List.map_cons, List.map_map]
      simp only [Nat.pow_zero, Nat.div_one, List.cons.injEq, true_and]
      apply List.map_congr_left
      intro i _
      simp only [Function.comp, Nat.pow_succ, Nat.mul_comm (256 ^ i) 256, ← Nat.div_div_eq_div_mul]
    rw [this, ofLe, ih, Nat.pow_succ, Nat.mul_comm (256 ^ n) 256, Nat.mod_mul]
    simp

/-- A word written is read back. -/
theorem Mem.word_setWord_same (m : Mem) (a : Nat) (w : Word) : Mem.word (Mem.setWord m a w) a = w := by
  have h := Mem.read_write_same m a (wordBytes w)
  rw [wordBytes_length] at h
  unfold Mem.word Mem.num Mem.setWord
  rw [h, wordBytes, ofLe_leBytes]
  apply BitVec.eq_of_toNat_eq
  have := w.isLt
  simp only [BitVec.toNat_ofNat]
  omega

end Sys2Proof.Machine
end

