-- ==== Sys2Proof/Laws/Router.lean ====
section
/-! SUPPORT. What the arrival of a packet does, and what sending one leaves alone. -/

namespace Sys2Proof.Machine

theorem modPort_chip (s : State) (p : Nat) (f : FiPort → FiPort) (h : ∀ x, (f x).expect = x.expect) :
    (s.modPort p f).chip = s.chip := by
  unfold State.chip State.modPort vmod
  dsimp only
  split
  · rename_i x hx
    by_cases h0 : p = 0
    · subst h0
      have : s.fi.ports[0] = x := by
        have := hx
        simp at this
        exact this
      simp [h, this]
    · simp [h0]
  · rfl

theorem flowControl_expect (x : FiPort) (v : Word) : (x.flowControl v).expect = x.expect := rfl

theorem takeIngress_chip (s : State) (p : Pkt) : (s.takeIngress p).chip = s.chip :=
  modPort_chip _ _ _ fun _ => rfl

/-- Everything but the packets on the way, the network and its arbiters, the fabric interface and what has left the package is the
same. -/
def OnlyRouter (s t : State) : Prop := t = { s with net := t.net, fi := t.fi, out := t.out, pn := t.pn }

theorem OnlyRouter.refl (s : State) : OnlyRouter s s := rfl

theorem OnlyRouter.trans {s t u : State} (h : OnlyRouter s t) (k : OnlyRouter t u) : OnlyRouter s u := by
  unfold OnlyRouter at *
  rw [h] at k
  exact k

theorem OnlyRouter.core {s t : State} (h : OnlyRouter s t) (c : CoreId) : t.core c = s.core c := by rw [h]; rfl
theorem OnlyRouter.cores {s t : State} (h : OnlyRouter s t) : t.cores = s.cores := by rw [h]
theorem OnlyRouter.errs {s t : State} (h : OnlyRouter s t) : t.errs = s.errs := by rw [h]
theorem OnlyRouter.tier {s t : State} (h : OnlyRouter s t) : t.tier = s.tier := by rw [h]
theorem OnlyRouter.tgs {s t : State} (h : OnlyRouter s t) : t.tgs = s.tgs := by rw [h]
theorem OnlyRouter.cu {s t : State} (h : OnlyRouter s t) : t.cu = s.cu := by rw [h]
theorem OnlyRouter.ck {s t : State} (h : OnlyRouter s t) : t.ck = s.ck := by rw [h]
theorem OnlyRouter.hp {s t : State} (h : OnlyRouter s t) : t.hp = s.hp := by rw [h]
theorem OnlyRouter.ws {s t : State} (h : OnlyRouter s t) : t.ws = s.ws := by rw [h]
theorem OnlyRouter.ms {s t : State} (h : OnlyRouter s t) : t.ms = s.ms := by rw [h]
theorem OnlyRouter.saddleQ {s t : State} (h : OnlyRouter s t) : t.saddleQ = s.saddleQ := by rw [h]

theorem withPn_only (s : State) (pn : Pn) : OnlyRouter s { s with pn } := rfl

theorem modPort_only (s : State) (p : Nat) (f : FiPort → FiPort) : OnlyRouter s (s.modPort p f) := rfl

theorem emit_only (s : State) (o : Out) : OnlyRouter s (s.emit o) := rfl

theorem withNet_only (s : State) (n : List Pkt) : OnlyRouter s { s with net := n } := rfl

theorem ite_only {c : Prop} [Decidable c] {s a b : State} (ha : OnlyRouter s a) (hb : OnlyRouter s b) :
    OnlyRouter s (if c then a else b) := by split <;> assumption

theorem drainPort_only (n i : Nat) (s : State) : OnlyRouter s (drainPort n i s) := by
  induction n generalizing s with
  | zero => exact .refl s
  | succ n ih =>
    unfold drainPort
    dsimp only
    split
    · exact .refl s
    · split
      · exact .refl s
      · split
        · exact modPort_only s _ _
        · split
          · exact .refl s
          · exact .trans (.trans (modPort_only s _ _) (emit_only _ _)) (ih _)

theorem refuseAtEgress_only (s : State) (p : Pkt) : OnlyRouter s (s.refuseAtEgress p) := by
  unfold State.refuseAtEgress; split <;> rfl

theorem withFi_only (s : State) (f : Fi) : OnlyRouter s { s with fi := f } := rfl

/-- The router touches only its own state, the packets on the way and what leaves the package. -/
theorem inject_only (s : State) (p : Pkt) (key : Option (BitVec 16)) : OnlyRouter s (s.inject p key) := by
  unfold State.inject
  extract_lets e f1 t ports k f2 answer q u b i v
  have ht : OnlyRouter s t := withFi_only s _
  have hu : OnlyRouter s u := .trans ht (ite_only (withFi_only t _) (.refl t))
  have hv : OnlyRouter s v := .trans hu (modPort_only _ _ _)
  clear_value v u t
  refine ite_only (.trans (.trans ht (withFi_only t _)) (refuseAtEgress_only _ _)) ?_
  refine ite_only (.trans ht (refuseAtEgress_only _ _)) (ite_only (.trans hu (withNet_only _ _)) ?_)
  exact .trans hv (drainPort_only _ _ _)

theorem settle_only (s : State) (p : Pkt) : OnlyRouter s (s.settle p) := by
  unfold State.settle; dsimp only; split <;> rfl

theorem delivered_only (s : State) (p : Pkt) : OnlyRouter s (s.delivered p) := by
  unfold State.delivered; split <;> rfl

theorem received_only (s : State) (p : Pkt) : OnlyRouter s (s.received p) := by
  unfold State.received
  extract_lets t
  have ht : OnlyRouter s t := ite_only (withNet_only s _) (modPort_only _ _ _)
  clear_value t
  refine ite_only (.trans (t := if p.kind = .resp then t.settle p else t) ?_ (delivered_only _ _)) ht
  exact ite_only (.trans ht (settle_only _ _)) ht

/-- The errors that a packet meets depend on the errors alone. -/
theorem rowErrs_of_errs {s t : State} (h : t.errs = s.errs) (p : Pkt) : rowErrs t p = rowErrs s p := by
  unfold rowErrs; rw [h]

theorem rowChecked_of_none {s : State} {p : Pkt} (h : rowErrs s p = []) (k : State → State) : rowChecked s p k = k s := by
  simp [rowChecked, h]

/-- A packet that reaches its target is handed to it. -/
theorem arrive_of_receives {p : Pkt} {s : State} (h : Receives p s) (k : State → State) :
    arrive s p k = k (s.received p) := by
  obtain ⟨⟨-, hold⟩, herr, way, checks⟩ := h
  have ing : ∀ t : State, OnlyRouter s t → p.fabric = true → t.fi.pkey = s.fi.pkey → t.chip = s.chip →
      ingress t p (fun s => rowChecked (s.delivered p) p k) = k ((if p.kind = .resp then t.settle p else t).delivered p) := by
    intro t ht hf hk hc
    obtain ⟨a, b, c, d, e, f⟩ := checks hf
    unfold ingress
    dsimp only
    have hcond : (p.dsad && decide (5 < p.dstUnit.toNat)) = false := by
      cases hd : p.dsad
      · rfl
      · simp; exact c hd
    have hs : t.svc = s.svc := by rw [ht]
    have hp : t.pinc = s.pinc := by rw [ht]
    rw [hk, a, hc, hs, hp]
    simp only [Bool.not_true, Bool.false_eq_true, if_false, b, hcond, d, e, ne_eq, not_true_eq_false, or_self]
    split
    · rename_i h
      rcases f with f | f <;> simp [f] at h
    · refine rowChecked_of_none ?_ k
      rw [rowErrs_of_errs _ p, herr]
      exact (OnlyRouter.trans (OnlyRouter.trans ht (ite_only (settle_only t p) (.refl t))) (delivered_only _ p)).errs
  unfold arrive State.received
  rw [hold]
  simp only [Option.isSome_none, Bool.false_eq_true, if_false]
  by_cases hn : s.net.find? p.sameFlow = some p
  · simp only [hn, beq_self_eq_true, if_true]
    cases hf : p.fabric
    · exact rowChecked_of_none (s := { s with net := s.net.erase p }) ((rowErrs_of_errs (s := s) rfl p).trans herr) k
    · simp only [if_true]
      rw [ing { s with net := s.net.erase p } rfl hf rfl rfl]
  · have hn' : (s.net.find? p.sameFlow == some p) = false := by simpa using hn
    rcases way with way | ⟨hf, hup⟩
    · exact absurd way hn
    · have hup' : ((vget s.fi.ports p.port.toNat).st == PortState.up) = true := by simp [hup]
      simp only [hn', Bool.false_eq_true, if_false, hf, hup', Bool.and_self, if_true]
      exact ing _ (modPort_only _ _ _) hf rfl (takeIngress_chip s p)

/-! ### Sending -/

/-- Core `k` with its counts of deviations taken from `u`. -/
def CoreSt.deviated (k u : CoreSt) : CoreSt :=
  { k with sq := { k.sq with devTotal := u.sq.devTotal, counted := u.sq.counted, devFirst := u.sq.devFirst } }

/-- Everything but the network, the router, what has left the package, and the cores' counts of deviations is the same. -/
def OnlyNet (s t : State) : Prop :=
  t = { s with net := t.net, fi := t.fi, out := t.out, pn := t.pn, cores := t.cores }
    ∧ ∀ c, t.core c = (s.core c).deviated (t.core c)

theorem OnlyNet.trans {s t u : State} (h : OnlyNet s t) (k : OnlyNet t u) : OnlyNet s u := by
  obtain ⟨a, b⟩ := h
  obtain ⟨d, e⟩ := k
  refine ⟨by rw [a] at d; exact d, fun c => ?_⟩
  have := e c
  rw [b c] at this
  exact this

theorem OnlyRouter.onlyNet {s t : State} (h : OnlyRouter s t) : OnlyNet s t := by
  refine ⟨by rw [h], fun c => ?_⟩
  rw [h.core c]; rfl

/-- A held row is counted, and deviates the core that sent it. -/
theorem heldRow_only (who : NetOwner) (s : State) (h : NetSlot × Nat × Bool) : OnlyNet s (heldRow who s h) := by
  obtain ⟨slot, at_, guard⟩ := h
  unfold heldRow
  dsimp only
  split
  · exact (withPn_only s _).onlyNet
  · refine OnlyNet.trans (withPn_only s _).onlyNet ⟨rfl, fun c => ?_⟩
    by_cases h : c = who.owner
    · subst h
      unfold State.modSq
      rw [State.core_modCore_same]
      rfl
    · unfold State.modSq
      rw [State.core_modCore_ne _ h]
      rfl

theorem foldl_onlyNet {α : Type} (f : State → α → State) (h : ∀ s a, OnlyNet s (f s a)) (l : List α) (s : State) :
    OnlyNet s (l.foldl f s) := by
  induction l generalizing s with
  | nil => exact OnlyRouter.onlyNet rfl
  | cons a l ih => exact (h s a).trans (ih _)

theorem rowLeaves_only (s : State) (f : NetFrom) (x : Nat) (gs : List NetStage) : OnlyNet s (s.rowLeaves f x gs).1 :=
  (withPn_only s (s.pn.sendRow f x gs).1).onlyNet.trans (foldl_onlyNet _ (heldRow_only f.who) _ _)

theorem booked_only (s : State) (p : Pkt) (x : Nat) : OnlyNet s (s.booked p x).1 := by
  unfold State.booked
  dsimp only
  split
  · exact OnlyRouter.onlyNet rfl
  · split
    · exact rowLeaves_only _ _ _ _
    · exact (withPn_only s _).onlyNet

theorem put_only (s : State) (p : Pkt) : OnlyRouter s (s.put p) := ite_only (inject_only s p none) (withNet_only s _)

/-- Sending a packet touches only the network, the router, what leaves the package, and the counts of deviations. -/
theorem send_only (s : State) (p : Pkt) : OnlyNet s (s.send p) := (booked_only _ _ _).trans (put_only _ p).onlyNet

end Sys2Proof.Machine
end

