-- ==== Sys2Proof/Laws/Slots.lean ====
section
/-! SUPPORT. Emit records, ready rows and the LIVE generation of the slots. -/

namespace Sys2Proof.Machine

/-- The record at the head of an emit ring is an emit of its kind. -/
theorem emits_of {s : State} {kind : Nat} {r : EmitRec} {b : List Byte} {n : Nat} (h : emitHead s = some (b, n))
    (h' : (s.recvEp (emitHome s) (emitEp s)).peer.unit = r.core ∧ emitMatches b r = true ∧ recFld b 0 1 = kind ∧ emitBad s kind r = false
      ∧ errsIn s .cm (BitVec.ofNat 8 (fld s.hp.ringCfg 49 42)) (((s.recvEp (emitHome s) (emitEp s)).base
          + (s.recvEp (emitHome s) (emitEp s)).rptr) / 256 * 256) (ceilTo ((s.recvEp (emitHome s) (emitEp s)).base
          + (s.recvEp (emitHome s) (emitEp s)).rptr + 256) 256) = []) : s.emits kind r :=
  ⟨b, n, h, h'⟩

/-- A vector as pairs of its elements and their places. -/
theorem zipIdx_eq {α : Type} [Inhabited α] {n : Nat} (v : Vector α n) :
    v.toList.zipIdx = (List.range n).map fun i => (vget v i, i) := by
  apply List.ext_getElem
  · simp
  · intro i h _
    have h : i < n := by simpa using h
    simp [vget, h]

/-- The ready rows, in one pass over the slots. -/
theorem readyRows_eq (h : Hp) : readyRows h = h.slots.toList.zipIdx.filterMap fun x =>
    match x.1.readyNs with
    | some t => if x.1.st = .opened ∧ !x.1.stepping then some (x.2, t.toNat) else none
    | none => none := by
  rw [zipIdx_eq, List.filterMap_map]
  rfl

/-- Where no generation is LIVE, no slot changes its generation. -/
theorem followLive_self (s : State) (h : ∀ g, (s.ws.gens.toList.any fun e => e.st == 3 && e.wgen == g) = false) :
    followLive s = s := by
  unfold followLive
  have e : (s.hp.slots.map fun x => x) = s.hp.slots := by simp
  simp only [h, Bool.false_eq_true, and_false, if_false, e]

end Sys2Proof.Machine
end

