-- ==== Sys2Proof/Laws/Units.lean ====
section
/-! SUPPORT. Vectors of units, unified registers, and the commands of the slot opcodes. -/

namespace Sys2Proof.Machine

theorem Array.getD_setIfInBounds' {α : Type} (xs : Array α) (i j : Nat) (x d : α) :
    (xs.setIfInBounds i x).getD j d = if i = j ∧ i < xs.size then x else xs.getD j d := by
  simp only [Array.getD_eq_getD_getElem?, Array.getElem?_setIfInBounds]
  by_cases h : i = j
  · subst h
    by_cases h2 : i < xs.size <;> simp [h2]
  · simp [h]

/-- An element set is read back; the others stay. -/
theorem vget_vset {α : Type} [Inhabited α] {n : Nat} (v : Vector α n) (i j : Nat) (x : α) :
    vget (vset v i x) j = if i = j ∧ i < n then x else vget v j := by
  have := Array.getD_setIfInBounds' v.toArray i j x default
  simp only [vget, vset, Vector.toArray_setIfInBounds]
  rw [this]
  simp

/-- An element changed is read back changed; the others stay. -/
theorem vget_vmod {α : Type} [Inhabited α] {n : Nat} (v : Vector α n) (i j : Nat) (f : α → α) :
    vget (vmod v i f) j = if i = j ∧ i < n then f (vget v i) else vget v j := by
  unfold vmod
  by_cases h : i < n
  · rw [Vector.getElem?_eq_getElem h]
    have e : vget v i = v[i] := by simp [vget, h]
    have := vget_vset v i j (f v[i])
    unfold vset at this
    rw [this, e]
  · rw [Vector.getElem?_eq_none (by omega)]
    simp [h]

theorem vget_replicate {α : Type} [Inhabited α] {n : Nat} (x : α) (i : Nat) (h : i < n) :
    vget (Vector.replicate n x) i = x := by
  simp [vget, h]

/-- The command of a slot opcode is an issue of that opcode. -/
theorem exec_slotInstr {op : BitVec 8} {i : Issue} {c : Instr} (h : slotInstr op i = some c) (s : State) :
    exec c s = issue op i s := by
  have hop {n : Nat} (e : op.toNat = n) : op = BitVec.ofNat 8 n := by
    apply BitVec.eq_of_toNat_eq
    rw [BitVec.toNat_ofNat, ← e, Nat.mod_eq_of_lt op.isLt]
  unfold slotInstr at h
  split at h
  all_goals first
    | (next e => obtain rfl := Option.some.inj h; rw [hop e]; rfl)
    | cases h

end Sys2Proof.Machine
end

