-- ==== Sys2Proof/Tests/Slice0.lean ====
section
/-! SUPPORT. Tests of the model: ill-formed commands that are refused, values that the manual's examples give, and for each
statement states and operands that meet its hypotheses, at the bounds of their ranges. -/

set_option Elab.async false

namespace Sys2Proof.Tests

open Sys2Proof Sys2Proof.Machine

/-- The state after reset with core 0 in RUN. -/
def running : State := State.reset.modSq 0 fun q => { q with st := .run }

/-- A bundle of one word for core 0. -/
def word (slot : BitVec 3) (bits : BitVec 56) : Issue := { core := 0, slot, bits, last := true }

/-- Bits of a slot word from (low bit, value) pairs. -/
def put (fs : List (Nat × Nat)) : BitVec 56 := BitVec.ofNat 56 ((fs.map fun f => f.2 * 2 ^ f.1).sum)

/-- `Receives` as it is evaluated. -/
def receives (p : Pkt) (s : State) : Bool :=
  !s.cu.failstop && s.ck.hold.isNone && (rowErrs s p == [])
    && (s.net.find? p.sameFlow == some p || (p.fabric && (vget s.fi.ports p.port.toNat).st == .up))
    && (!p.fabric || ((s.fi.pkey.toList.any fun w => bit w 63 && fld w 15 0 != 0 && fld w 15 0 == p.pkey.toNat)
      && p.kind != .reserved && (!p.dsad || decide (p.dstUnit.toNat ≤ 5)) && p.dstChip == s.chip && p.dstSvc == s.svc
      && (p.dstPinc == 0 || p.dstPinc == s.pinc)))

theorem receives_iff (p : Pkt) (s : State) : Receives p s ↔ receives p s = true := by
  unfold Receives receives State.works
  cases p.fabric <;> cases p.dsad <;> simp [and_assoc, bne_iff_ne]

/-! ### Slot words that issue -/

/-- The slot that accepts an opcode. -/
def slotOf (op : BitVec 8) : BitVec 3 :=
  if op.toNat < 0x20 then 0 else if op.toNat < 0x30 then 3 else if op.toNat < 0x40 then 6 else if op.toNat < 0x68 then 4
  else if op.toNat < 0x80 then 5 else if op.toNat < 0xA0 then 2 else 7

/-- A core in RUN with s[1] = 1, send endpoint 0 and receive endpoint 0 OPEN with a message in the ring, handle 0 valid,
local queue 1 ACTIVE and a finished tile. -/
def busy : State := running.modCore 0 fun k => { k with
  sq := { k.sq with s := k.sq.s.set 1 1 }
  me := { k.me with ftq := [0x8000000000000000], td := k.me.td.set 0 0x3300000000000000, tiles := k.me.tiles.set 0 { st := .queued } }
  cq := { k.cq with
    send := k.cq.send.set 0 { st := .opened, credit := 3840, ring := 4096, maxlen := 65536 }
    recv := k.cq.recv.set 0 { st := .opened, wptr := 512 }
    handles := k.cq.handles.set 0 { valid := true, qword := 0x8000000000000000 }
    queues := k.cq.queues.set 1 { st := .active } } }

/-- s[0] with the operand word w. -/
def withWord (w : Word) : State := busy.modSq 0 fun q => { q with s := q.s.set 0 w }

/-- Every opcode that issues with its operand bits zero. -/
def plainOps : List (BitVec 8) := [0x01, 0x02, 0x03, 0x04, 0x05, 0x06, 0x07, 0x08, 0x09, 0x0A, 0x0B, 0x0C, 0x0D, 0x0E,
  0x10, 0x11, 0x12, 0x13, 0x14, 0x15, 0x16, 0x17, 0x18, 0x1C, 0x1D, 0x80,
  0x81, 0x82, 0x83, 0x86, 0x88, 0x89, 0x8A, 0x8F, 0x31, 0x32, 0x23, 0x24, 0x22,
  0x40, 0x41, 0x42, 0x43, 0x44, 0x45, 0x48, 0x49, 0x4A, 0x4B, 0x4C, 0x4D, 0x50, 0x51, 0x52, 0x53, 0x54, 0x55, 0x56, 0x57, 0x58, 0x59,
  0x5B, 0x5C, 0x5D, 0x5E, 0x5F, 0x60, 0x61, 0x62, 0x63, 0x66, 0x68, 0x69, 0x6A, 0x6B, 0x6C, 0x6D, 0x71, 0x72,
  0x74, 0x76, 0x78, 0x7C, 0x7D, 0x33, 0x34, 0x35, 0xA2, 0xA3, 0xA4, 0xA5, 0xA6, 0xA9, 0xAB, 0xAC, 0xAD]

theorem witness_plain_issue : busy.calm 0 ∧ ∀ op ∈ plainOps,
    IssuesAlone op (word (slotOf op) (if op = 0xA9 then put [(39, 1)] else 0)) busy := by
  unfold IssuesAlone State.canIssue State.works State.calm; and_intros <;> decide +kernel

theorem witness_WaitsAndHalt :
    (∀ op ∈ ([0x89, 0x8A, 0x88, 0x8F] : List (BitVec 8)), IssuesAlone op (word 2 0) busy)
    ∧ IssuesAlone 0x00 (word 7 0) busy ∧ IssuesAlone 0x89 (word 2 0xFFFFFFFF) busy
    ∧ IssuesAlone 0x88 (word 2 (put [(36, 255), (35, 1)])) busy := by
  unfold IssuesAlone State.canIssue State.works; and_intros <;> decide +kernel

/-- LDN and STN at the last eight bytes of core memory; destinations at both ends of s. -/
theorem witness_ScalarOpcodes :
    (∀ op ∈ ([0x1C, 0x1D] : List (BitVec 8)), IssuesAlone op (word 1 (put [(49, 31), (0, 0xFFFFF)])) busy
      ∧ errsIn busy .cm 0 8388352 8388608 = [])
    ∧ IssuesAlone 0x01 (word 0 (put [(49, 67), (42, 67), (35, 63)])) busy
    ∧ IssuesAlone 0x18 (word 1 (put [(49, 31), (0, 0xFFFFFFFF)])) busy := by
  unfold IssuesAlone State.canIssue State.works; and_intros <;> decide +kernel

theorem witness_UnifiedRegistersHoldWrites : (0 : Nat) < 68 ∧ (67 : Nat) < 68 := by decide

/-- BRC taken on zero and not taken on one; the last bundle index; LP.SET and LP.SETR at 1; LP.BR at 1 and beyond. -/
theorem witness_BranchesAndLoops :
    IssuesAlone 0x80 (word 2 8191) busy
    ∧ (IssuesAlone 0x81 (word 2 8191) busy ∧ readU busy 0 0 = 0)
    ∧ (IssuesAlone 0x81 (word 2 (put [(49, 1)])) busy ∧ readU busy 0 1 ≠ 0)
    ∧ IssuesAlone 0x82 (word 2 (put [(49, 31)])) busy ∧ IssuesAlone 0x83 (word 2 (put [(49, 67)])) busy
    ∧ IssuesAlone 0x84 (word 2 (put [(44, 3), (0, 1)])) busy ∧ IssuesAlone 0x85 (word 2 (put [(49, 1), (44, 3)])) busy
    ∧ (let s := busy.modSq 0 fun q => { q with lp := q.lp.set 3 1 }
       IssuesAlone 0x86 (word 2 (put [(44, 3)])) s ∧ (readU s 0 67).toNat = 1)
    ∧ IssuesAlone 0x86 (word 2 (put [(44, 3)])) busy := by
  unfold IssuesAlone State.canIssue State.works; and_intros <;> decide +kernel

/-- A core whose tile 1 is OPEN. -/
def opened : State := busy.modMe 0 fun m => { m with tiles := m.tiles.set 1 { st := .opened } }

/-- LDTD of all sixteen descriptors; a stream of eight groups that opens a tile, and of one group into an OPEN tile; a list; one load of
each path and 256. -/
theorem witness_MatrixInstructionsIssue :
    IssuesAlone 0x23 (word 3 0) busy
    ∧ IssuesAlone 0x24 (word 3 (put [(44, 15)])) busy
    ∧ IssuesAlone 0x31 (word 6 (put [(44, 255)])) busy ∧ IssuesAlone 0x32 (word 6 (put [(44, 255)])) busy
    ∧ IssuesAlone 0x21 (word 3 (put [(48, 7), (35, 7), (31, 1), (30, 1)])) busy ∧ IssuesAlone 0x22 (word 3 (put [(14, 511), (36, 0x7FF)])) busy
    ∧ (busy.calm 0 ∧ opened.calm 0)
    ∧ (let i := word 6 0
       IssuesAlone 0x32 i busy ∧ fld i.bits 51 44 = 0 ∧ bit i.bits 31 = false ∧ (busy.core 0).me.pendCm = [])
    ∧ (let i := word 3 (put [(48, 1)])
       IssuesAlone 0x21 i opened ∧ fld i.bits 47 35 = 0 ∧ bit i.bits 31 = false ∧ bit i.bits 30 = false ∧ bit i.bits 29 = false
         ∧ (vget (opened.core 0).me.tiles (fld i.bits 51 48)).st = .opened) := by
  unfold IssuesAlone State.canIssue State.works State.calm; and_intros <;> decide +kernel

/-- The vector instructions that need operand bits: a distance, a block of 32, a format. -/
theorem witness_VectorInstructionsIssue :
    (∀ op ∈ plainOps, 0x40 ≤ op.toNat → op.toNat < 0x7E → IssuesAlone op (word (slotOf op) 0) busy)
    ∧ IssuesAlone 0x70 (word 5 (put [(2, 128)])) busy ∧ IssuesAlone 0x73 (word 5 (put [(2, 255)])) busy
    ∧ IssuesAlone 0x64 (word 4 (put [(42, 31), (38, 3)])) busy ∧ IssuesAlone 0x65 (word 4 (put [(42, 31), (38, 7)])) busy := by
  unfold IssuesAlone State.canIssue State.works; and_intros <;> decide +kernel

theorem witness_DmaInstructionsQueueDescriptor :
    busy.calm 0 ∧ (∀ n ∈ [0, 3], (vget (busy.core 0).dma.queues n).descs.any (·.ended) = false
      ∧ ∀ op ∈ ([0x33, 0x34, 0x35] : List (BitVec 8)), IssuesAlone op (word 6 (put [(54, n)])) busy) := by
  unfold IssuesAlone State.canIssue State.works State.calm; and_intros <;> decide +kernel

/-- The busy core with peers on its own package, milepost 1, endpoint 1 waiting to be accepted, endpoint 2 BROKEN, and an empty OPEN ring
at endpoint 2. -/
def talking : State := busy.modCq 0 fun q => { q with
  mpCurrent := 1
  send := (q.send.set 0 { st := .opened, credit := 3840, ring := 4096, maxlen := 65536, peer := { loc := true } }).set 2 { st := .broken }
  recv := ((q.recv.set 0 { st := .opened, wptr := 512, peer := { loc := true } }).set 1 { waiting := some { kind := .chOpen } }).set 2 { st := .opened }
  handles := q.handles.set 0 { valid := true, qword := 0x8000000000000000, loc := true } }

/-- The same with an operand word in s[0]. -/
def withOperand (w : Word) : State := talking.modSq 0 fun q => { q with s := q.s.set 0 w }

/-- Every instruction of the C slot, with the states of endpoints, queues and handles that the statement tells apart. -/
theorem witness_ChannelInstructionsIssue :
    (let s := withOperand (BitVec.ofNat 64 (2 ^ 47 + 65536 * 2 ^ 17))
     s.calm 0 ∧ IssuesAlone 0xA0 (word 7 (put [(51, 31)])) s ∧ bit (vget (s.core 0).sq.s 0) 47 = true)
    ∧ (let s := withOperand 0x1000
       s.calm 0 ∧ IssuesAlone 0xA1 (word 7 (put [(51, 1)])) s ∧ IssuesAlone 0xA1 (word 7 (put [(51, 3)])) s
         ∧ (vget (s.core 0).cq.recv 3).waiting = none
         ∧ (let p : Pkt := { kind := .chOpen }
            (vget (s.core 0).cq.recv 1).waiting = some p ∧ p.fabric = false ∧ fld p.arg 46 39 < (s.core 0).cq.mpCurrent.toNat
              ∧ 256 * recordRows (fld p.arg 63 47) + 256 ≤ 4096 * 2 ^ fld (vget (s.core 0).sq.s 0) 35 32))
    ∧ (talking.calm 0
      ∧ (IssuesAlone 0xA2 (word 7 (put [(30, 224)])) talking ∧ (vget (talking.core 0).cq.send 0).st = .opened
        ∧ (vget (talking.core 0).cq.send 0).needsPad 224 = false ∧ (vget (talking.core 0).cq.send 0).peer.loc = true)
      ∧ IssuesAlone 0xA2 (word 7 (put [(30, 3000)])) talking
      ∧ (IssuesAlone 0xA2 (word 7 (put [(51, 2)])) talking ∧ (vget (talking.core 0).cq.send 2).st = .broken
        ∧ (vget (talking.core 0).cq.send 2).statusOnly = false)
      ∧ (IssuesAlone 0xA3 (word 7 0) talking ∧ (vget (talking.core 0).cq.recv 0).st = .opened ∧ (vget (talking.core 0).cq.recv 0).peer.loc = true
        ∧ hdrKind (Mem.read (talking.core 0).cm.mem 0 32) = 0)
      ∧ (IssuesAlone 0xA4 (word 7 0) talking ∧ (vget (talking.core 0).cq.recv 0).rptr ≠ (vget (talking.core 0).cq.recv 0).wptr
        ∧ hdrKind (Mem.read (talking.core 0).cm.mem 0 256) ≠ 1)
      ∧ (IssuesAlone 0xA4 (word 7 (put [(51, 2)])) talking ∧ (vget (talking.core 0).cq.recv 2).rptr = (vget (talking.core 0).cq.recv 2).wptr)
      ∧ IssuesAlone 0xA5 (word 7 0) talking ∧ IssuesAlone 0xA5 (word 7 (put [(45, 1)])) talking
      ∧ IssuesAlone 0xA6 (word 7 0) talking ∧ IssuesAlone 0xA6 (word 7 (put [(51, 31), (45, 1)])) talking)
    ∧ (let s := withOperand (BitVec.ofNat 64 (2 ^ 63 + 2 ^ 14))
       s.calm 0 ∧ IssuesAlone 0xA8 (word 7 0) s ∧ (s.queue (.local 0 0)).waiting = [])
    ∧ (IssuesAlone 0xA9 (word 7 (put [(39, 1)])) talking
      ∧ (let s := talking.modQ (.local 0 1) fun q => { q with st := .broken }
         s.calm 0 ∧ IssuesAlone 0xA9 (word 7 (put [(39, 1)])) s))
    ∧ (let s := withOperand 0x800000000000
       s.calm 0 ∧ IssuesAlone 0xAA (word 7 (put [(51, 15)])) s ∧ bit (vget (s.core 0).sq.s 0) 47 = true)
    ∧ IssuesAlone 0xAB (word 7 0) talking
    ∧ (IssuesAlone 0xAC (word 7 0) talking ∧ (vget (talking.core 0).cq.handles 0).loc = true
      ∧ handleCount (vget (talking.core 0).cq.handles 0) * handleWidth (vget (talking.core 0).cq.handles 0) ≤ 256)
    ∧ ((withOperand 255).calm 0 ∧ IssuesAlone 0xAD (word 7 0) (withOperand 255)) := by
  unfold IssuesAlone State.canIssue State.works State.calm; and_intros <;> decide +kernel

/-- An ADD in the B slot faults; an ADD whose operand is not yet available is held; core 224 of a DX224 is absent. -/
theorem witness_BundlesFaultOrHold :
    (slotInstr 0x01 (word 2 0) = some (.add (word 2 0)) ∧ busy.canIssue 0 ∧ ((word 2 0).word 0x01).active = false
      ∧ (busy.core 0).sq.pc.toNat < 8191 ∧ (busy.core 0).sq.bundle = [] ∧ (busy.core 0).sq.fault = 0
      ∧ bundleHolds busy 0 [(word 2 0).word 0x01] = [] ∧ errsIn busy .imem 0 0 64 = [] ∧ busy.calm 0)
    ∧ (let s := busy.modSq 0 fun q => { q with avail := [(3, 5)] }
       let w := (word 0 (put [(42, 3)])).word 0x01
       s.canIssue 0 ∧ (s.core 0).sq.bundle = [] ∧ bundleFaults s 0 [w] = [] ∧ s.calm 0
         ∧ bundleHolds s 0 [w] ++ regHolds (s.core 0) w ++ unitHolds s 0 w ≠ [])
    ∧ (let s : State := { State.reset with part := .dx224a1 }
       ∃ c, s.fusedOff c = true ∧ s.fusedOff (c - 1) = false) := by
  unfold State.canIssue State.works State.calm; and_intros <;> decide +kernel

/-- A core word that management may write, on core 0 and on core 255 of the full part. -/
theorem witness_CountersClear : State.reset.cu.failstop = false ∧ State.reset.fusedOff 0 = false ∧ State.reset.fusedOff 255 = false := by
  decide +kernel

/-- The state after reset with core 0 in a sequencer state. -/
def inState (st : SqState) : State := State.reset.modSq 0 fun q => { q with st }

theorem witness_SequencerControl :
    (∀ st ∈ ([.idle, .ready, .run, .stopped, .done, .fault, .resetting] : List SqState),
      (inState st).cu.failstop = false ∧ (inState st).fusedOff 0 = false ∧ ((inState st).core 0).sq.st = st)
    ∧ ((inState .stopped).core 0).quiet = true := by
  decide +kernel

/-- A core in RESETTING whose fence is open. -/
def fenced : State := { inState .resetting with cu := { State.reset.cu with fences := [.core 0] } }

theorem witness_CoreFences : fenced.cu.failstop = false ∧ fenced.cu.recovering = false ∧ fenced.cu.fences.contains (.core 0) = true
    ∧ coreDrained fenced 0 = true ∧ bit (fenced.cu.failRec[0]) 0 = false := by
  and_intros <;> decide +kernel

/-- The sections of a program with two members, and a program that has them for service IDs 0 and 7. -/
def sections0 : ProgSections :=
  { images := [], sets := [], windows := [], placement := [], tollgates := [], latchTgs := [], stepStartTgs := []
    recoveryEntry := 0, maxPos := 4096, posPerBlock := 64, totalBlocks := 100, poolLo := 0, poolHi := 0, partnerLo := 0
    partnerHi := 0, stageTa := 0, areaTa := 0, members := [0, 7] }

def prog0 : Program :=
  { sections := [(0, sections0), (7, sections0)], fingerprint := 5, cross := false, reinLow := false, measurement := [], src := {} }

/-- A record of a fault of core 1 at time 0. -/
def faultOf (ns : Word) : FaultRecord :=
  { svc := 7, phys := 1, logical := 1, sqFault := 1, unitFault := 0, fprint := 0, step := 0, timeNs := ns, cls := 0 }

theorem witness_FaultServiceRuns :
    (let s : State := { inState .fault with coreFaults := [0] }
     s.cu.failstop = false ∧ s.coreFaults.contains 0 = true)
    ∧ (let s : State := { State.reset with fsvc := { records := [faultOf 0] }, prog := some prog0 }
       s.fsvc.records.find? (fun r => r.cls == 0) = some (faultOf 0) ∧ s.cu.losses = [])
    ∧ (∀ lost ∈ [0, 299999], let s : State := { State.reset with
         fsvc := { records := [faultOf 0] }, prog := some prog0, cu := { State.reset.cu with losses := [(7, lost)] } }
       s.fsvc.records.find? (fun r => r.cls == 0) = some (faultOf 0) ∧ (7, lost) ∈ s.cu.losses ∧ 7 ∈ sections0.members ∧ s.sections = some sections0
         ∧ (faultOf 0).timeNs.toNat ≤ lost + 5000000000 ∧ lost < (faultOf 0).timeNs.toNat + 300000)
    ∧ (let s : State := { State.reset with
         fsvc := { records := [faultOf 5000000001] }, prog := some prog0, cu := { State.reset.cu with losses := [(7, 0)] } }
       s.fsvc.records.find? (fun r => r.cls == 0) = some (faultOf 5000000001) ∧ ¬(faultOf 5000000001).timeNs.toNat ≤ 0 + 5000000000) := by
  and_intros <;> decide +kernel

/-- A load of each path whose write beat is due; a list at its last entry, whose entry is not valid, lies beyond the region, and lies at its
bounds; one that opens its tile with INIT. -/
theorem witness_LoadsAndListEntriesLand :
    (let x (path : LdsPath) : PendLoad := { src := { path, addr := 0, scale := none }, run := 0, num := 0, at_ := 0 }
     let s := running.modMe 0 fun m => { m with pendWs := [x .wstream], pendCm := [x .cm] }
     s.cu.failstop = false ∧ (s.core 0).me.pendCm = [x .cm] ∧ (s.core 0).me.pendWs = [x .wstream] ∧ 0 ≤ (s.core 0).sq.clk)
    ∧ (let l (e : Nat) : ListRest := { addr := 0, next := 0, last := 0, td := 0, colMask := 0, rlo := 8, rlen := 7, bundle := 0, at_ := 0, rows := leBytes 8 e }
       let s (e : Nat) (st : TileState) : State := running.modMe 0 fun m => { m with
         list := some (l e), tiles := m.tiles.set 0 { st }, td := m.td.set 0 0x3300000000000000 }
       let w (e : Nat) : Word := BitVec.ofNat 64 (ofLe (slice (l e).rows 0 8))
       (∀ e ∈ [0, 2 ^ 63 + 7, 2 ^ 63 + 8, 2 ^ 63 + 15, 2 ^ 63 + 16, 2 ^ 63 + 2 ^ 47 + 8],
         (s e .opened).cu.failstop = false ∧ (s e .opened).errs = [] ∧ ((s e .opened).core 0).me.list = some (l e) ∧ 8 ≤ (l e).rows.length)
       ∧ bit (w 0) 63 = false
       ∧ (∀ n ∈ [7, 16], bit (w (2 ^ 63 + n)) 63 = true ∧ fld (w (2 ^ 63 + n)) 8 0 = n ∧ ((s (2 ^ 63 + n) .opened).core 0).sq.st = .run)
       ∧ (∀ n ∈ [8, 15], fld (w (2 ^ 63 + n)) 8 0 = n ∧ fld (w (2 ^ 63 + n)) 54 51 = 0 ∧ bit (w (2 ^ 63 + n)) 47 = false
           ∧ (vget ((s (2 ^ 63 + n) .opened).core 0).me.tiles 0).isOpen ((s (2 ^ 63 + n) .opened).core 0).sq.clk = true)
       ∧ (let t := s (2 ^ 63 + 2 ^ 47 + 8) .free
          bit (w (2 ^ 63 + 2 ^ 47 + 8)) 47 = true ∧ fld (w (2 ^ 63 + 2 ^ 47 + 8)) 8 0 = 8 ∧ (vget (t.core 0).me.tiles 0).st = .free
            ∧ vget (t.core 0).me.tdAt 0 ≤ (t.core 0).sq.clk ∧ descOk (vget (t.core 0).me.td 0) = true)) := by
  and_intros <;> decide +kernel

/-- Tile 7 in CHECK for three a-cycles: one with FP32 accumulation, which passes; one whose accumulator differs from its checksum, with 0,
1 and 2 replays and with its log lost; and one in REPLAY whose record's source is as it was used, and is not. -/
theorem witness_TilesCheckAndReplay :
    let s (x : Tile) : State := running.modCore 0 fun k => { k with
      sq := { k.sq with clk := 3 }, me := { k.me with tiles := k.me.tiles.set 7 x } }
    (let bad (x : Tile) : State := (s x).modMe 0 fun m => { m with acc := Mem.write m.acc (accAddr 7 0 0) [1] }
     let fp : Tile := { st := .check, desc := 0x0020000000000000 }
     ((s fp).cu.failstop = false ∧ (s fp).errs = [] ∧ tilePasses ((s fp).core 0).me 7 = true ∧ (vget ((s fp).core 0).me.tiles 7) = fp
       ∧ fp.freeAt + 3 ≤ ((s fp).core 0).sq.clk ∧ ((s fp).core 0).me.ftq.length < 4)
     ∧ (∀ n ∈ [0, 1, 2], let x : Tile := { st := .check, replays := n }
         replayable x = true ∧ (vget ((bad x).core 0).me.tiles 7) = x ∧ tilePasses ((bad x).core 0).me 7 = false
           ∧ (bad x).cu.failstop = false ∧ bit ((bad x).cu.failRec[0]) 0 = false)
     ∧ replayable { st := .check, overflow := true } = false)
    ∧ (let y : Source := { path := .cm, addr := 0, scale := none }
       let set := State.reset.core 0 |>.me.active.load y ((s {}).cmRead 0 0 2048) []
       let r (used : List Byte) : Contribution := { source := some y, groups := [(0, 255)], row0 := 0, colMask := 0, used }
       let good := set.image ++ set.scale ++ ((s {}).core 0).me.line 0
       let x (used : List Byte) : Tile := { st := .replay, desc := 0x0020000000000000, log := [r used] }
       ∀ used ∈ [good, []], (s (x used)).works ∧ (s (x used)).calm 0 ∧ ((s (x used)).core 0).me.pendWs = [] ∧ ((s (x used)).core 0).me.pendCm = []
         ∧ replayable (x used) = true
         ∧ (r used).same { ((s (x used)).core 0).me with active := set } = (used == good)
         ∧ ((s (x used)).core 0).me.ftq.length < 4) := by
  unfold State.works State.calm; and_intros <;> decide +kernel

/-- A mask of whole groups at both ends, and one that is not whole; a halted core, a running one; a busy scrub with a corrected
granule in its bank and one in another. -/
theorem witness_AsyncMaskAndScrub :
    (let v : Word := 0xF000000F
     ∀ g, g < 8 → fld v (4 * g + 3) (4 * g) = 0 ∨ fld v (4 * g + 3) (4 * g) = 15)
    ∧ (¬∀ g, g < 8 → fld (0x7 : Word) (4 * g + 3) (4 * g) = 0 ∨ fld (0x7 : Word) (4 * g + 3) (4 * g) = 15)
    ∧ (State.reset.sealed = false ∧ (State.reset.core 0).sq.st = .idle ∧ (running.core 0).sq.st ≠ .idle ∧ (running.core 0).halted = false)
    ∧ ((inState .done).core 0).halted = true ∧ ((inState .done).core 0).cm.scrubBusy = false
    ∧ (let s : State := { (inState .done).modCm 0 fun m => { m with scrubBusy := true, scrubBank := 31 } with
         errs := [{ store := .cm, core := 0, addr := 31 * 0x40000, nbits := 2, fold := false },
           { store := .cm, core := 0, addr := 0, nbits := 1, fold := false }] }
       (s.core 0).cm.scrubBusy = true ∧ ∀ e ∈ s.errs, e.fold = false ∧ e.nbits < 3) := by
  and_intros <;> decide +kernel

/-- Accesses below the async banks, of part of a granule, and up to the last byte; a core that the part does not have; a head row whose bank
is free, is kept by another access, and is the guard's; a head that has waited 63 and 64 a-cycles; a scheduled access that asks for the bank
in the guard's a-cycle. -/
theorem witness_AsyncPortServes :
    (let k := running.core 0
     insideAsync k 0x6FFFE0 32 = false ∧ insideAsync k 0x7FFFE0 32 = true ∧ 0x7FFFE0 + 32 ≤ 2 ^ 23
     ∧ (0x7FFFE1 % 32 ≠ 0) ∧ running.fusedOff 0 = false ∧ ({ running with part := .dx224a1 } : State).fusedOff 255 = true
     ∧ ({ addr := 0x7FFFE0, len := 32, write := true, data := List.replicate 32 1, src := 9 } : AsyncAccess).wf = true
     ∧ ({ addr := 0x6FFFE0, len := 32, write := false, data := [], src := 9 } : AsyncAccess).wf = true
     ∧ ({ addr := 0x7FFFE1, len := 31, write := true, data := List.replicate 31 1, src := 9 } : AsyncAccess).wf = true)
    ∧ (let row : AsyncRow := .write 0x7FFFE0 (List.replicate 32 1) 9
       let s (f : Cm → Cm) := running.modCm 0 fun m => f { m with asyncBuf := [row, .read 0x7FFF00 256 8] }
       let use : Nat × PortUse := (0, { port := .bank, unit := 31, row := 0, code := 1, write := false })
       (s id).errs = [] ∧ ((s id).core 0).cm.asyncBuf = row :: [.read 0x7FFF00 256 8] ∧ ((s id).core 0).bankOpen (cmBank row.addr) = true
         ∧ ((s fun m => { m with inUse := [use] }).core 0).bankOpen (cmBank row.addr) = false
         ∧ ((s fun m => { m with inUse := [use], headServed := true }).core 0).cm.headServed = true
         ∧ ((s fun m => { m with headWait := 63 }).core 0).cm.headWait < 64
         ∧ (let k := (s fun m => { m with headWait := 64 }).core 0
            64 ≤ k.cm.headWait ∧ k.cm.guardAt = none ∧ k.cm.headServed = false)
         ∧ (let a : MemAsk := { code := 1, seq := 0, rows := [0x7FFF], at_ := 0 }
            let k := (s fun m => { m with headWait := 64, guardAt := some 0, asks := [a] }).core 0
            k.cm.guardAt = some k.sq.clk ∧ k.cm.inUse = [] ∧ k.cm.asks = [a] ∧ a.port = .bank ∧ a.rows = [0x7FFF] ∧ a.at_ = k.sq.clk
              ∧ cmBank (256 * 0x7FFF) = cmBank row.addr)) := by
  and_intros <;> decide +kernel

/-- A package in a fail-stop. -/
def stopped : State := { State.reset with cu := { State.reset.cu with failstop := true } }

theorem witness_ManagementReachesCoreMemory :
    (0x7FFFF8#23).toNat % 8 = 0
    ∧ ((inState .done).fusedOff 0 = false ∧ (inState .done).cu.failstop = false ∧ ((inState .done).core 0).halted = true
      ∧ (inState .done).errs = [] ∧ ((inState .done).core 0).bankOpen 31 = true)
    ∧ (running.core 0).halted = false ∧ stopped.cu.failstop = true ∧ stopped.fusedOff 0 = false
    ∧ insideAsync (running.core 0) 0x7FFFF8 8 = true ∧ insideAsync (running.core 0) 0x6FFFF8 8 = false := by
  and_intros <;> decide +kernel

/-- A transfer of one beat to the last column. -/
def transfer : PortReq := { requester := 9, ta := 0, beats := 1, data := List.replicate 1024 3 }

/-- A port's queue at the last column; the entry that owns it, and one that waits. -/
def atPort (side : Side) (queue : List PortEntry) : State := State.reset.setPort 255 side { queue }

def entry (kept : Nat := 0) (owner : Bool := true) (preempted : Nat := 0) (job : PortJob := .outside) : PortEntry :=
  { req := transfer, job, kept, owner, preempted }

/-- Both ends of the tier window, one address past each, and a misaligned one; a port that is idle and one whose side is taken. -/
theorem witness_TierSlowPath :
    (0x8000000000#40).toNat % 8 = 0 ∧ 0x8000000000 ≤ (0x9800000000 - 8#40).toNat
    ∧ (0x9800000000 - 8#40).toNat < 0x8000000000 + 2048 * 0x3000000
    ∧ ¬(0x9800000000#40).toNat < 0x8000000000 + 2048 * 0x3000000 ∧ ¬0x8000000000 ≤ (0x7FFFFFFFF8#40).toNat
    ∧ (0x8000000004#40).toNat % 8 ≠ 0 ∧ State.reset.cu.failstop = false ∧ stopped.cu.failstop = true ∧ stopped.errs = []
    ∧ (State.reset.port 255 .write).queue = [] ∧ ((atPort .write [entry]).port 255 .write).owned = true
    ∧ ((0x9800000000 - 8#40).toNat - 0x8000000000) / 0x3000000 / 8 = 255 := by
  and_intros <;> decide +kernel

theorem witness_ColumnPortsGrantAndComplete :
    (portReqFits transfer 0 .write = true ∧ portReqFits { transfer with ta := 0x3000000 } 0 .write = false
      ∧ (State.reset.port 0 .write).queue = [])
    ∧ (let e : PortEntry := { entry with req := { transfer with ta := BitVec.ofNat 37 (255 * 2 ^ 29) } }
       let s := atPort .write [e]
       let late (n : Nat) : State := s.modSq 255 fun q => { q with clk := n }
       s.cu.failstop = false ∧ (s.port 255 .write).owned = true ∧ portReqFits e.req 255 .write = true
       ∧ (let t := late 1024
          (t.port 255 .write).queue = e :: [] ∧ (t.port 255 .write).guarded = false ∧ (t.port 255 .write).headAt + 1024 ≤ t.colClk 255)
       ∧ (let e : PortEntry := { e with req := { e.req with beats := 32 } }
          let t := (atPort .write [e]).modSq 255 fun q => { q with clk := 16 }
          (t.port 255 .write).queue = [e] ∧ e.owner = true ∧ e.from_ ≤ t.colClk 255
            ∧ (t.port 255 .write).grantAt + (t.port 255 .write).limit ≤ t.colClk 255 ∧ e.kept + (t.colClk 255 - 0) < e.req.beats)
       ∧ (∀ x ∈ [e, { e with preempted := 1 }, { e with req := { e.req with requester := 10 }, job := .slowRead 0 },
            { e with req := { e.req with requester := 10 }, job := .slowWrite 0 5 }, { e with job := .chunk }, { e with job := .scrubRead }],
          ∀ sd ∈ [Side.read, .write], let t := (atPort sd [x]).modSq 255 fun q => { q with clk := 1 }
          (t.port 255 sd).queue.head? = some x ∧ x.owner = true ∧ t.errs = [] ∧ (t.core 255).due = [] ∧ x.req.beats ≤ x.kept + (t.colClk 255 - 0)
            ∧ bit t.cu.mirrorCfg 63 = false)
       ∧ e.kept + (s.colClk 255 - 0) < e.req.beats
       ∧ (let a : MemAsk := { code := 8, port := .tierWrite, seq := 0, rows := [], at_ := 0 }
          let t := s.modCm 255 fun m => { m with asks := [a] }
          (t.port 255 .write).guarded = false ∧ a ∈ (t.core 255).due ∧ a.port = sidePort .write)) := by
  and_intros <;> decide +kernel

/-- The row output of stop 255, and a row of core 9 that has its slot in a-cycle 1. -/
def output : NetPlace := { place := 0, stop := 255 }

def coreRow : NetUse := { slot := placeSlot output, at_ := 1, cls := .sched, owner := { owner := 9, saddle := false, dma := false } }

def rowAt (h : Word) : State := { State.reset with pn := { State.reset.pn with uses := [coreRow], holdFirst := h } }

/-- The patrol at the last block of a column and at the first; a guard where nothing takes the slot and where a row of a core does. -/
theorem witness_PatrolAndNetworkEvents :
    (∀ b ∈ [0, 196607], let s : State := { State.reset with tm := { State.reset.tm with scrubCfg := 0x10001, scrubStat := BitVec.ofNat 64 b } }
      s.cu.failstop = false ∧ s.ck.rest = false ∧ s.ck.hold = none ∧ bit s.tm.scrubCfg 16 = true ∧ (s.port 255 .read).queue = []
        ∧ fld s.tm.scrubStat 17 0 = b)
    ∧ State.reset.pn.uses = [] ∧ bit (State.reset.cu.failRec[0]) 0 = false
    ∧ (rowAt 0).pn.uses = [coreRow] ∧ (rowAt 1).pn.holdFirst ≠ 0 ∧ (rowAt 0).pn.holdFirst = 0
    ∧ coreRow.slot = placeSlot output ∧ coreRow.at_ = placeClk (rowAt 0) output + 1 ∧ (placeSlot output).rows = 1 := by
  and_intros <;> first | rfl | decide +kernel

theorem witness_PageMapWrites : State.reset.cu.failstop = false ∧ bit State.reset.cu.mirrorCfg 63 = false := by decide +kernel

/-- Core 0 in RUN with one descriptor in queue 3. -/
def queued (d : Desc) : State := running.modCore 0 fun k => { k with dma := { k.dma with queues := k.dma.queues.set 3 { descs := [d] } } }

/-- The page map holds an entry for the first page of slot 5. -/
def mapped (e : Nat) (s : State) : State := { s with pageMap := Mem.write [] (4 * (5 * 4096)) (leBytes 4 e) }

/-- A COPY of 512 rows that has not started; one that is done; one with an acknowledgement due; a unit for column 1 whose port is free, and
taken; a block request there; and a look-up of the first page of a slot, with an entry of no page, of another generation, of its own in
either column, while another core looks up, and of the first page of two. -/
theorem witness_DmaMovesRows :
    (let d : Desc := { op := .copy .cm 0 .abuf 0 512, bundle := 0 }
     (queued d).works ∧ (vget ((queued d).core 0).dma.queues 3).descs = d :: [] ∧ ((queued d).core 0).frozen = false
       ∧ d.started = false ∧ d.ended = false ∧ (queued d).calm 0 ∧ ((queued d).core 0).cm.inUse = [] ∧ d.next = 0 ∧ d.rows = [])
    ∧ (let d : Desc := { op := .copy .cm 0 .abuf 0 512, bundle := 0, started := true, next := 512, ask := 1 }
       (vget ((queued d).core 0).dma.queues 3).descs = d :: [] ∧ d.op.total ≤ d.next ∧ d.rows = [] ∧ d.requests = [] ∧ d.units = [] ∧ d.acks = []
         ∧ ((queued d).core 0).cm.asks = [])
    ∧ (let d : Desc := { op := .copy .cm 0 .tier 0 1, bundle := 0, started := true, next := 1, acks := [0] }
       (queued d).errs = [] ∧ (vget ((queued d).core 0).dma.queues 3).descs = [d] ∧ d.acks = 0 :: [])
    ∧ (let d : Desc := { op := .copy .cm 0 .tier (2 ^ 29) 1, bundle := 0, started := true, next := 1, units := [(0, 2 ^ 29, [5])] }
       let taken : State := (queued d).modCm 1 fun m => { m with asks := [{ code := 8, port := .tierWrite, seq := 0, rows := [], at_ := 0 }] }
       taColumn (2 ^ 29) ≠ (0 : CoreId).toNat ∧ ((queued d).port 1 .write).queue = [] ∧ portTaken (queued d) 1 .write = false
         ∧ (queued d).pn.uses = [] ∧ (queued d).pn.stays = [] ∧ (taken.port 1 .write).queue = [] ∧ portTaken taken 1 .write = true)
    ∧ (let d : Desc := { op := .copy .tier (2 ^ 29) .cm 0 8, bundle := 0, started := true, requests := [(0, 2 ^ 29, 0, 2048)] }
       (vget ((queued d).core 0).dma.queues 3).descs = [d] ∧ d.units = [] ∧ ((queued d).port 1 .read).queue = []
         ∧ portTaken (queued d) 1 .read = false)
    ∧ (let d : Desc := { op := .paged false 5 0 .cm 0 1, bundle := 0, started := true }
       (queued d).works ∧ (queued d).errs = [] ∧ (vget ((queued d).core 0).dma.queues 3).descs = [d] ∧ d.ended = false
         ∧ d.from_ ≤ ((queued d).core 0).sq.clk ∧ ((queued d).core 0).frozen = false ∧ d.looked.length < pagesOf 0 1 ∧ pagesOf 0 1 = 1
         ∧ lookTaken (queued d) 0 = false ∧ (queued d).calm 0 ∧ ((queued d).core 0).cm.inUse = [] ∧ ((queued d).core 0).sq.fault = 0
         ∧ bit (pageEntry (queued d) 5 0) 31 = false
         ∧ lookTaken { queued d with tm := { (queued d).tm with lookFree := (queued d).tm.lookFree.set 0 1 } } 0 = true
       ∧ (∀ g ∈ [0, 1], ∀ col ∈ [0, 1],
          let s := mapped (2 ^ 31 + 4 * g + col * 2 ^ 23) (queued d)
          let e := pageEntry s 5 0
          bit e 31 = true ∧ fld e 9 2 = g ∧ (vget s.tm.slotGen 5).toNat = 0 ∧ taColumn (entryTa e) = col))
    ∧ (let d : Desc := { op := .paged false 5 49120 .cm 224 2, bundle := 0, started := true }
       d.looked.length + 1 < pagesOf 49120 2) := by
  unfold State.works State.calm; and_intros <;> decide +kernel

/-- R186: of a COPY to the row after its source, row 1 is read before row 0 is written, so what moves is the old contents. -/
theorem test_copy_overlap :
    (let s := (queued { op := .copy .cm 0 .cm 256 2, bundle := 0 }).modCore 0 fun k =>
       { k with cm := { k.cm with mem := [(0, 1), (256, 2), (512, 3)] } }
     (((dmaStart 0 3 s).pass 0 4).core 0).cm.mem) = [(0, 1), (256, 1), (512, 2)] := by decide +kernel

/-- A packet to endpoint 3 of core 0 that waits on the network of the package, and one that comes off an UP fabric port. -/
def toCore (kind : PktKind) (arg word : Word := 0) (body : List Byte := []) : Pkt :=
  { kind, vc := kind.vc, dstUnit := 0, dstEp := 3, srcUnit := 9, arg, word, body }

def fromFabric (p : Pkt) : Pkt := { p with fabric := true, pkey := 5, srcSvc := 7, srcChip := 7 }

/-- The state with a packet under way to its target. -/
def bring (p : Pkt) (s : State) : State :=
  if p.fabric then { s with fi := { s.fi with pkey := s.fi.pkey.set 0 0x8000000000000005, ports := s.fi.ports.set 0 { st := .up } } }
  else { s with net := [p] }

/-- Endpoint 3 of core 0. -/
def recv3 (r : RecvEp) : State := running.modRecv (.core 0) 3 fun _ => r
def send3 (x : SendEp) : State := running.modSend (.core 0) 3 fun _ => x

theorem witness_packets : ∀ k ∈ ([.chRow, .chOpen, .cqRow, .mirror, .wsChunk, .wsCtrl, .tgArrived, .heartbeat, .time, .resp, .credit, .join,
    .peerReset] : List PktKind), Receives (toCore k) (bring (toCore k) running)
      ∧ Receives (fromFabric (toCore k)) (bring (fromFabric (toCore k)) running) := by
  unfold Receives State.works; decide +kernel

/-- A CH.OPEN from this package and from another: at an endpoint that waits, one that does not, and one LISTENING with the smallest
ring and with the largest; a join at a queue without and with another that waits; both waits end; both replies. -/
theorem witness_HandshakesResolve :
    (∀ r ∈ ([{}, { waiting := some (toCore .chOpen) }, { st := .listening, size := 0, mp := 1 },
          { st := .listening, size := 8, mp := 1, base := 0x700000 - 0x100000 }] : List RecvEp),
        ∀ p ∈ [toCore .chOpen, fromFabric (toCore .chOpen (arg := BitVec.ofNat 64 (65536 * 2 ^ 47)))],
        Receives p (bring p (recv3 r)) ∧ p.dsad = false)
    ∧ (∀ w ∈ [[], [toCore .join]], let p := toCore .join
        let s := bring p (running.modQ (.local 0 3) fun _ => { st := .closed, waiting := w })
        Receives p s ∧ (s.queue (queueOf p)).waiting = w ∧ (s.queue (queueOf p)).st = .closed ∧ s.fusedOff 0 = false
          ∧ s.fencing (.core 0) = false)
    ∧ (vget ((recv3 { waiting := some (toCore .chOpen) }).core 0).cq.recv 3).waiting = some (toCore .chOpen)
    ∧ (vget ({ State.reset with hp := { State.reset.hp with nrecv := State.reset.hp.nrecv.set 255 { waiting := some (toCore .chOpen) } } } :
        State).hp.nrecv 255).waiting = some (toCore .chOpen)
    ∧ (∀ status ∈ [0, 4], let p := toCore .resp (arg := BitVec.ofNat 64 (status * 2 ^ 60 + 2 ^ 56 + 3840 * 2 ^ 35)) (word := 1)
        let s := bring p (send3 { st := .opening })
        Receives p s ∧ fld p.word 5 0 = 1 ∧ fld p.arg 63 60 = status ∧ fld p.arg 59 56 ≠ milepostReason
          ∧ (vget (s.core 0).cq.send 3).st = .opening ∧ (vget (s.core 0).cq.send 3).inc = p.dstInc ∧ (s.core 0).sq.st = .run
          ∧ (s.core 0).cq.fault = 0)
    ∧ (let p := toCore .resp (word := 2)
       let s := bring p (running.modCq 0 fun q => { q with handles := q.handles.set 3 { joining := true } })
       Receives p s ∧ fld p.word 5 0 = 2 ∧ (vget (s.core 0).cq.handles 3).joining = true ∧ (s.core 0).inc = p.dstInc
         ∧ fld p.arg 63 60 = 0) := by
  unfold Receives State.works; and_intros <;> decide +kernel

/-- A row for an OPEN endpoint with its ring in the scheduled banks, in the async banks with 15 rows in the buffer, for another
incarnation, and for a CLOSED endpoint; a core that the part does not have; a peer-reset notice without rows of its channel under way. -/
theorem witness_MessageRowsLand :
    (let p := { toCore .chRow (body := List.replicate 256 7) with dstInc := 4 }
     let s (r : RecvEp) : State := bring p ((recv3 r).modCm 0 fun m => { m with asyncBuf := List.replicate 15 (.read 0x7FFF00 256 8) })
     (∀ r ∈ ([{ st := .opened, inc := 4 }, { st := .opened, inc := 4, base := 0x700000 }, { st := .opened, inc := 5 }, { inc := 4 }] :
        List RecvEp), Receives p (s r) ∧ (s r).fusedOff 0 = false ∧ (s r).fencing (.core 0) = false ∧ (s r).calm 0
          ∧ ((s r).core 0).cm.inUse = [] ∧ ((s r).core 0).cm.asyncBuf.length < 16)
     ∧ touchesAsync (running.core 0) 0 ({ } : RecvEp).z = false ∧ touchesAsync (running.core 0) 0x700000 ({ } : RecvEp).z = true
     ∧ (let p := { p with dstUnit := 255 }
        let s := bring p { running with part := .dx224a1 }
        Receives p s ∧ s.fusedOff 255 = true ∧ s.fencing (.core 255) = false))
    ∧ (let p := toCore .peerReset
       let s := bring p (recv3 { st := .opened, wptr := 256 })
       Receives p s ∧ (s.net.any fun q => q.kind == .chRow && q.srcUnit == p.srcUnit && q.ssad == p.ssad && q.dstUnit == p.dstUnit
         && q.dsad == p.dsad && q.dstEp == p.dstEp) = false ∧ s.calm 0 ∧ (s.core 0).cm.inUse = []
         ∧ (vget (s.core 0).cq.recv 3).st = .opened ∧ (vget (s.core 0).cq.recv 3).inc = p.dstInc) := by
  unfold Receives State.works State.calm; and_intros <;> decide +kernel

/-- A response of each status, a credit return and a close notice at an OPEN endpoint of the incarnation and at another. -/
theorem witness_RepliesReachSenders :
    (∀ status ∈ [0, 1, 2, 3, 5], ∀ inc ∈ [0, 0xFFFF], let p := toCore .resp (arg := BitVec.ofNat 64 (status * 2 ^ 60))
        let s := bring p (send3 { st := .opened, inc := BitVec.ofNat 16 inc })
        Receives p s ∧ fld p.arg 63 60 = status ∧ fld p.word 5 0 = 0 ∧ bit p.word 6 = false ∧ p.dsad = false
          ∧ (vget (s.core 0).cq.send 3).inc.toNat = inc ∧ (vget (s.core 0).cq.send 3).st = .opened ∧ (s.core 0).sq.st = .run)
    ∧ (∀ st ∈ [SendState.opened, .broken], let p := toCore .credit (arg := BitVec.ofNat 64 (256 * 2 ^ 43))
        let s := bring p (send3 { st })
        Receives p s ∧ (vget (s.core 0).cq.send 3).st = st ∧ (vget (s.core 0).cq.send 3).inc = p.dstInc) := by
  unfold Receives State.works; and_intros <;> decide +kernel

/-- A CH.SEND at an endpoint without credit and at one with FLOWCTL, a CQ.CONTRIB at a busy handle, each held; and none. -/
def holding (op : BitVec 8) (flow : Bool) (h : CqHold) : State := running.modCore 0 fun k => { k with
  sq := { k.sq with waiting := true, bundle := [{ slot := 7, opcode := op, bits := 0 }] }
  cq := { k.cq with
    send := k.cq.send.set 0 { st := .opened, credit := 0, ring := 4096, maxlen := 65536, flowctl := flow }
    handles := k.cq.handles.set 0 { valid := true, busy := true }
    holdStart := some (0, h), flowLimit := 1 } }

theorem witness_HoldsTimeOut :
    (∀ x ∈ ([(0xA2, false, .credit), (0xA2, true, .flow), (0xAC, false, .contrib)] : List (BitVec 8 × Bool × CqHold)),
      let s := holding x.1 x.2.1 x.2.2
      s.works ∧ (s.core 0).sq.st = .run ∧ (s.core 0).sq.fault = 0 ∧ (s.core 0).cq.holdStart = some (0, x.2.2)
        ∧ (s.core 0).waitingHold = some (x.2.2, 0) ∧ s.still 0 = true ∧ (s.core 0).cq.flowLimit ≠ 0)
    ∧ (let s := (holding 0xA2 false .credit).modSq 0 fun q => { q with waiting := false, bundle := [] }
       (s.core 0).waitingHold = none) := by
  unfold State.works; and_intros <;> decide +kernel

/-- Local queue 3 of core 0 in each state with one contributor, whose row has landed, and a queue of the saddle store; a full round of one
element without a reader, and with one; a busy handle. -/
theorem witness_RoundsCombine :
    (let x : Contributor := { peer := {}, handle := 0, cfmt := false }
     let p := toCore .cqRow (arg := BitVec.ofNat 64 (5 * 2 ^ 58 + 2 ^ 47)) (body := List.replicate 256 1)
     (∀ st ∈ [QState.active, .forming, .closed, .broken], ∀ sad ∈ [true, false],
        let p := { p with dsad := sad }
        let s := bring p (running.modQ (queueOf p) fun _ => { st, contribs := [(5, x)] })
        Receives p s ∧ (s.queue (queueOf p)).st = st ∧ (s.queue (queueOf p)).inc = p.dstInc ∧ s.fencing (.core 0) = false
          ∧ s.fencing .port = false ∧ s.fusedOff 0 = false
          ∧ (s.queue (queueOf p)).early.length + (s.queue (queueOf p)).input.length < 64
          ∧ (s.queue (queueOf p)).contribs.find? (fun c => c.1 == fld p.arg 63 58) = some (5, x)
          ∧ bit p.arg 47 = true ∧ (s.queue (queueOf p)).mode = 0 ∧ p.body.length = 256 ∧ fld p.arg 57 48 = 0
          ∧ s.calm 0 ∧ (s.core 0).cm.inUse = [])
     ∧ queueOf p = .local 0 3 ∧ queueLocal (queueOf { p with dsad := true }) = false)
    ∧ (let r : Reader := { ep := { st := .opened, credit := 3840, ring := 4096, maxlen := 65536 }, handle := 0 }
       ∀ q ∈ [QueueRef.saddle 63, .local 0 3], ∀ rs ∈ [[], [(0, r)], [(0, { r with gone := true })]],
       let s : State := running.modQ q fun _ =>
         { st := .active, readers := rs, contribs := [(0, { peer := {}, handle := 0, cfmt := false, complete := true })] }
       s.works ∧ (s.queue q).st = .active ∧ (s.queue q).full = true ∧ (s.queue q).deliver = none ∧ (s.queue q).readers = rs
         ∧ (s.queue q).readerCount = 1 ∧ (s.queue q).count ≤ (s.queue q).perRecord ∧ r.ep.mayIssue ((s.queue q).count * 4) = true
         ∧ s.calm 0 ∧ (s.core 0).cm.inUse = [] ∧ (State.reset.queue q).full = false)
    ∧ (let p := toCore .resp (word := 3)
       let s := bring p (running.modCq 0 fun q => { q with handles := q.handles.set 3 { busy := true, valid := true } })
       Receives p s ∧ (vget (s.core 0).cq.handles 3).busy = true ∧ (s.core 0).inc = p.dstInc ∧ fld p.arg 63 60 ≤ 1) := by
  unfold Receives State.works State.calm; and_intros <;> decide +kernel

/-- Tollgate 255. -/
def tollgate (g : Tollgate) : State := { running with tgs := running.tgs.set 255 g }

/-- Core 0 arrives: at a disabled tollgate, at an expired one, twice, as the last of the members; a round that may release, with a
latch tollgate whose generation is LIVE and one whose is not; a member and another core at an expiry; a frame of this round, for
the second time, and of the next round; CFG writes. -/
theorem witness_TollgatesGatherAndRelease :
    (let on : Tollgate := { cfg := 0x8000000000000000, mask := (Vector.replicate 4 0).set 0 1, st := .gathering }
     (∀ g ∈ ([{}, { on with st := .expired }, { on with arrived := 1 }, on] : List Tollgate),
        let s := (tollgate g).modSq 0 fun q => { q with tgFly := [(255, 8191)] }
        (s.core 0).sq.tgFly.find? (fun x => x.1 == 255) = some (255, 8191) ∧ s.cu.failstop = false)
     ∧ ({ on with arrived := 1 } : Tollgate).mayRelease = true
     ∧ (let s := tollgate { on with arrived := 1 }
        s.cu.failstop = false ∧ s.ck.hold = none ∧ ∀ d, (vget s.tgs 255).member d = true → s.still d = true)
     ∧ (let s (w : BitVec 16) : State := { tollgate { on with arrived := 1 } with ws := { State.reset.ws with
          latchTgs := State.reset.ws.latchTgs.set 3 0x8000000000000000, gens := State.reset.ws.gens.set 0 { st := 2, wgen := 9 }, stepWgen := w } }
        (s 9).isLatch 255 = true ∧ latchReady (s 9) (releasedWgen (s 9) { on with arrived := 1 }) = true
          ∧ latchReady (s 8) (releasedWgen (s 8) { on with arrived := 1 }) = false)
     ∧ State.reset.isLatch 255 = false
     ∧ (let g : Tollgate := { on with mask := (Vector.replicate 4 0).set 0 3, arrived := 1 }
        g.st = .gathering ∧ g.waits = true ∧ g.member 0 = true ∧ g.member 2 = false
          ∧ ((tollgate g).modSq 0 fun q => { q with release := some (255, 5) }).cu.failstop = false))
    ∧ (∀ round ∈ [6, 7], ∀ peersIn ∈ ([0, 1] : List (BitVec 8)),
        let g : Tollgate := { cfg := 0x8100000000000000, round := 6, peer := (Vector.replicate 4 0).set 0 0x00070500, peersIn }
        let p := { fromFabric (toCore .tgArrived (arg := BitVec.ofNat 64 (round * 2 ^ 48 + 5 * 2 ^ 24))) with dstEp := 255, dsad := true }
        let s := bring p (tollgate g)
        Receives p s ∧ (s.tg 255).peerIndex p = some 0 ∧ (s.tg 255).en = true ∧ (s.tg 255).st ≠ .expired
          ∧ fld p.arg 63 48 = round ∧ bit (s.tg 255).peersIn 0 = (peersIn == 1))
    ∧ (let g : Tollgate := { cfg := 0x8000000000000000, st := .gathering }
       fld (0x0900000000000000 : Word) 59 56 = 9 ∧ fld (0x0800000000000000 : Word) 59 56 = 8
         ∧ setFld (0x0800000000000000 : Word) 61 61 0 ≠ setFld g.cfg 61 61 0
         ∧ setFld (0xA000000000000000 : Word) 61 61 0 = setFld g.cfg 61 61 0) := by
  unfold Receives State.works; and_intros <;> decide +kernel

/-- Ports all in one state, port p having seen the identity that port `e p` expects. -/
def wired (st : PortState) (e : Nat → Nat) (acceptSwap : Bool := false) : State :=
  { State.reset with fi := { State.reset.fi with acceptSwap, ports := (Vector.range 8).map fun p =>
      { st, seen := BitVec.ofNat 64 ((e p + 1) * 2 ^ 24 + 1), expect := BitVec.ofNat 64 ((p + 1) * 2 ^ 24) } } }

theorem witness_PortsTrainAndCheck :
    (∀ n, n < 8 → (vget State.reset.fi.ports n).st = .off) ∧ (∃ n, n < 8 ∧ (vget (wired .ident id).fi.ports n).st ≠ .off)
    ∧ (vget (wired .training id).fi.ports 7).st = .training ∧ popcount (0x03F : BitVec 12) 12 = 6 ∧ popcount (0x01F : BitVec 12) 12 = 5
    ∧ (vget (wired .ident id).fi.ports 7).st.linked = true ∧ (wired .ident id).fi.fault = 0
    ∧ (∀ n, n < 8 → (vget (wired .ident id).fi.ports n).st = .ident ∧ sees (wired .ident id) n n = true)
    ∧ (∀ ok ∈ [true, false], let s := wired .ident (fun p => if 6 ≤ p then 13 - p else p) ok
        s.fi.checkRun = false ∧ (∀ n, n < 8 → (vget s.fi.ports n).st = .ident) ∧ (∀ n, n < 6 → sees s n n = true)
          ∧ sees s 6 6 = false ∧ sees s 7 7 = false ∧ sees s 6 7 = true ∧ sees s 7 6 = true ∧ s.fi.acceptSwap = ok)
    ∧ ({ State.reset.fi with checkRun := true } : Fi).checkRun = true := by
  and_intros <;> decide +kernel

/-- A block whose lane is in turn, of two active lanes, and one that comes before its turn: not good, the next in order, the one after it,
and a NAK while a block has been sent sixteen times. -/
theorem witness_LinkBlocksAreTaken :
    (let b : UzlBlock := { bseq := 0xFFFF, ack := 0, ackv := false, nak := false, idle := false, xoff := 0, good := true, corrected := 0,
                           flits := [(0, 8)], heads := 1, bodies := 7, lane := 3 }
     let s (n : Nat) : State := State.reset.modPort 7 fun x => { x with st := .up, laneMap := 0x808, rxNext := 0xFFFF, replay := [(3, n)] }
     b.wf = true ∧ (vget (s 0).fi.ports 7).st.linked = true ∧ (s 0).cu.failstop = false
     ∧ (vget (s 0).fi.ports 7).deskew = [] ∧ bit (vget (s 0).fi.ports 7).laneMap b.lane.toNat = true
     ∧ (vget (s 0).fi.ports 7).laneOf (vget (s 0).fi.ports 7).rxBlock = some b.lane.toNat
     ∧ (let x := vget ((s 0).modPort 7 fun x => { x with rxBlock := 1 }).fi.ports 7
        x.deskew = [] ∧ bit x.laneMap b.lane.toNat = true ∧ x.laneOf x.rxBlock = some 11 ∧ 11 ≠ b.lane.toNat)
     ∧ (vget (s 0).fi.ports 7).rxNext = b.bseq ∧ (vget (s 0).fi.ports 7).rxNext ≠ { b with bseq := 0 }.bseq
     ∧ (∀ r ∈ (vget (s 15).fi.ports 7).replay, r.2 < 16) ∧ (∃ r ∈ (vget (s 15).fi.ports 7).replay, 15 ≤ r.2)
     ∧ bit ((s 15).cu.failRec[0]) 0 = false) := by
  and_intros <;> decide +kernel

/-- Port 7 up with a lane map, and a map of lanes to drop. -/
def lanesUp (m : BitVec 12) (d : Option (BitVec 12)) : State :=
  State.reset.modPort 7 fun x => { x with st := .up, laneMap := m, dropMap := d }

/-- A port with 7 and with 6 lanes; a proposal that waits; windows at the bounds; banks busy and idle; a message that the fabric
does not answer. -/
theorem witness_LanesRoutingAndTelemetry :
    (((vget (lanesUp 0x07F none).fi.ports 7).st.linked = true ∧ (vget (lanesUp 0x07F none).fi.ports 7).dropMap = none
        ∧ bit (vget (lanesUp 0x07F none).fi.ports 7).laneMap 0 = true)
      ∧ (vget (lanesUp 0x03F (some 0xF7E)).fi.ports 7).st.linked = true ∧ (vget (lanesUp 0x03F (some 0xF7E)).fi.ports 7).dropMap = some 0xF7E
        ∧ bit (vget (lanesUp 0x03F (some 0xF7E)).fi.ports 7).laneMap 0 = true)
    ∧ (fld State.reset.fi.laneCfg 63 32 = 0x100000 ∧ fld State.reset.fi.laneCfg 31 24 = 4 ∧ bit (State.reset.cu.failRec[0]) 0 = false)
    ∧ (State.reset.fi.bankBusy (!State.reset.fi.epoch) = false
      ∧ (let s : State := { State.reset with fi := { State.reset.fi with copying := true } }
         s.fi.bankBusy (!s.fi.epoch) = true ∧ s.fi.copying = true ∧ s.cu.remap = none))
    ∧ (let p := { toCore .chRow with epoch := true }
       let s : State := { State.reset with fi := { State.reset.fi with left := some true, awaited := [p] } }
       s.fi.left = some true ∧ s.fi.inFlight true ≠ 0 ∧ s.fi.inFlight false = 0)
    ∧ (let p : Pkt := { kind := .chRow, srcUnit := 0, srcEp := 31 }
       let s : State := { State.reset with fi := { State.reset.fi with awaited := [p] } }
       s.ck.hold = none ∧ s.fi.awaited[0]? = some p ∧ p.kind = .chRow ∧ p.ssad = false ∧ p.srcEp.toNat < 32
         ∧ (vget (s.core p.srcUnit).cq.send p.srcEp.toNat).inc = p.srcInc) := by
  and_intros <;> decide +kernel

/-- The bytes of a record from position `pos` on that holds values at rising offsets, zero elsewhere. -/
def fields (len : Nat) (fs : List (Nat × List Byte)) (pos : Nat := 0) : List Byte :=
  match fs with
  | [] => List.replicate (len - pos) 0
  | (o, v) :: fs => List.replicate (o - pos) 0 ++ v ++ fields len fs (o + v.length)

/-- A follower of member 7 that has stamped a SYNC, sent a DREQ and knows its path delay. -/
def follower : State := { State.reset with fi := { State.reset.fi with
  timeCfg := 0x0007000000000000, sync := some { t1 := 10, t2 := 20, c1 := 0 }, dreq := some (5, 30), delay := some 4 } }

/-- A TIME packet of member `src`, with SEQ 5. -/
def timeFrom (src kind : Nat) : Pkt :=
  { fromFabric (toCore .time (arg := BitVec.ofNat 64 (kind * 2 ^ 60)) (body := [0, 0, 0, 0, 0, 0, 0, 0, 0, 0, 5, 0])) with
    dsad := true, dstUnit := 4, srcSvc := BitVec.ofNat 16 src }

/-- A member, and the source, of time; SYNC from it and from another; DRESP for the DREQ under way. -/
theorem witness_TimeIsExchanged :
    (let s (w : Word) : State := { State.reset with fi := { State.reset.fi with timeCfg := w, offset := some (-5) } }
     (s 0).cu.failstop = false ∧ bit (s 0).fi.timeCfg 47 = false ∧ bit (s 0x0000800000000000).fi.timeCfg 47 = true ∧ (s 0).fi.offset = some (-5)
       ∧ State.reset.fi.offset = none)
    ∧ (∀ kind ∈ [1, 2, 3], ∀ src ∈ [7, 8],
        let p := timeFrom src kind
        let s := bring p follower
        Receives p s ∧ fld p.arg 63 60 = kind ∧ fromSource s p = decide (src = 7) ∧ s.fi.sync = some { t1 := 10, t2 := 20, c1 := 0 }
          ∧ s.fi.dreq = some (5, 30) ∧ bodySeq p = 5 ∧ s.fi.delay = some 4) := by
  unfold Receives State.works; and_intros <;> decide +kernel

/-- M below, at both ends of and above its range; a hold; REST. -/
theorem witness_ClockStepWrites :
    (∀ m ∈ [9, 10, 16, 17], (BitVec.ofNat 5 (fld (BitVec.ofNat 64 m) 4 0)).toNat = m)
    ∧ State.reset.ck.hold = none ∧ State.reset.ck.rest = false ∧ State.reset.ck.m = 16
    ∧ (({ State.reset.ck with hold := some (10, 1) } : Ck).hold ≠ none ∧ ({ State.reset.ck with rest := true } : Ck).rest = true) := by
  and_intros <;> decide +kernel

/-- A hold; a stopped and a running package; REST and a wake; samples at their bounds. -/
theorem witness_ClocksAndPower :
    (let s : State := { State.reset with ck := { State.reset.ck with hold := some (16, 0) } }
     s.cu.failstop = false ∧ s.ck.hold = some (16, 0) ∧ bit (s.cu.failRec[0]) 0 = false)
    ∧ State.reset.ck.hold = none
    ∧ (State.reset.cores.toList.any fun k => k.sq.st == .run || k.sq.st == .resetting) = false
    ∧ (running.cores.toList.any fun k => k.sq.st == .run || k.sq.st == .resetting) = true
    ∧ State.reset.ms.loading = none ∧ State.reset.ws.load.running = false
    ∧ (let k : Ck := { State.reset.ck with rest := true, waking := true }
       k.rest = true ∧ k.waking = true ∧ State.reset.ck.waking = false)
    ∧ (1000 ≤ (1000#16).toNat ∧ (999#16).toNat < 1000)
    ∧ (1320 < (1321#12).toNat ∧ (1320#12).toNat ≤ 1320 ∧ fld State.reset.ck.therm 11 0 = 0x488)
    ∧ (0 ≤ (0#8).toInt ∧ (0xFF#8).toInt < 0 ∧ ∀ q, (Config.avsMax q).toNat ≤ (0xFFFF#16).toNat) := by
  and_intros <;> first | exact fun q => Nat.le_of_lt_succ (Config.avsMax q).isLt | decide +kernel

/-- The watch of peer 8, at slot 31. -/
def watching (w : Watch) (s : State := State.reset) : State := { s with cu := { s.cu with watch := s.cu.watch.set 31 { w with valid := true, svc := 7 } } }

theorem witness_PeersAreWatched :
    State.reset.cu.failstop = false ∧ State.reset.cu.remap = none
    ∧ (∀ m ∈ [0, 1], ∀ i, i < 32 → let w := vget (watching { missed := m }).cu.watch i
        w.valid = true → w.lost = false → w.seen = false → w.missed < 2)
    ∧ (let s := watching { missed := 2 }
       s.cu.foPhase = 0 ∧ (vget s.cu.watch 31).valid = true ∧ (vget s.cu.watch 31).lost = false ∧ (vget s.cu.watch 31).seen = false
         ∧ (vget s.cu.watch 31).missed = 2 ∧ s.members.contains (vget s.cu.watch 31).svc = false
         ∧ ∀ j, j < 32 → j ≠ 31 → (vget s.cu.watch j).valid = false)
    ∧ (∀ ty ∈ [1, 2], let p := { fromFabric (toCore .heartbeat (arg := BitVec.ofNat 64 (ty * 2 ^ 60))) with dsad := true, dstUnit := 3 }
        let s : State := watching {} (bring p { State.reset with prog := some prog0, cu := { State.reset.cu with
          mirrorCfg := 0x8000700000000000, spare := State.reset.cu.spare.set 3 0x8000000000000009 } })
        Receives p s ∧ cuTypeOf p = ty ∧ watchOf s p.srcSvc = some 31 ∧ watchOf State.reset p.srcSvc = none
          ∧ (vget s.cu.watch 31).lost = false ∧ s.members.contains p.srcSvc = true ∧ s.ws.load.running = false ∧ s.cu.foPhase = 0
          ∧ s.mirrorOn = true ∧ fld s.cu.mirrorCfg 59 44 = 7 ∧ (∀ k, k < 3 → bit (vget s.cu.spare k) 63 = false)
          ∧ bit (vget s.cu.spare 3) 63 = true) := by
  unfold Receives State.works; and_intros <;> decide +kernel

/-- Each message of failover, at a lead in each phase and elsewhere; two spares and the last; a spare that restores. -/
theorem witness_FailoverRuns :
    (∀ ty ∈ [3, 4, 5, 6, 7, 8, 9], ∀ lead ∈ [true, false], ∀ ph ∈ ([2, 3] : List (BitVec 4)),
        let p := { fromFabric (toCore .heartbeat (arg := BitVec.ofNat 64 (ty * 2 ^ 60))) with dsad := true, dstUnit := 3 }
        let s : State := bring p { State.reset with cu := { State.reset.cu with lead, foPhase := ph } }
        Receives p s ∧ cuTypeOf p = ty ∧ s.cu.lead = lead ∧ s.cu.foPhase = ph ∧ s.cu.restored = false ∧ s.cu.recovering = false
          ∧ s.prog = none ∧ s.cu.fences.contains .package = false ∧ s.cu.isSpare = false)
    ∧ (let s : State := { State.reset with cu := { State.reset.cu with lead := true, foPhase := 2, spare := State.reset.cu.spare.set 3 0x8000000000000009 } }
       s.cu.spareIdx < 3 ∧ bit (vget s.cu.spare 3) 63 = true ∧ (∀ k, k < 3 → s.cu.spareIdx < k → bit (vget s.cu.spare k) 63 = false))
    ∧ (let s : State := { State.reset with cu := { State.reset.cu with lead := true, foPhase := 2, spareIdx := 3 } }
       ∀ k, k < 4 → s.cu.spareIdx < k → bit (vget s.cu.spare k) 63 = false)
    ∧ State.reset.cu.restoreTa = none
    ∧ (let s (r : Bool) (p : Option Program) : State := { State.reset with prog := p, cu := { State.reset.cu with
         restoreTa := some 0x1000, isSpare := true, foPhase := 3, restored := r } }
       (s false none).cu.failstop = false ∧ (s false none).cu.restored = false ∧ (s false none).prog = none
         ∧ (s true (some prog0)).prog ≠ none ∧ copiesActive (s true (some prog0)) = true) := by
  unfold Receives State.works; and_intros <;> decide +kernel

/-- A resync on and off; rows for each part and for none, at an idle port and at one with an owner; the port's owner that serves a row;
an acknowledgement with a row that asked for it. -/
theorem witness_MirrorCommits :
    bit ({ State.reset.cu with mirrorStat := 0x8000 } : Cu).mirrorStat 15 = true ∧ bit State.reset.cu.mirrorStat 15 = false
    ∧ (∀ part ∈ [0, 4, 5], let p := { fromFabric (toCore .mirror (arg := BitVec.ofNat 64 ((2 ^ 26 - 2 ^ 24 - 256) * 2 ^ 27 + part * 2 ^ 23))
          (body := List.replicate 256 1)) with dsad := true, dstUnit := 3 }
        let s := bring p State.reset
        Receives p s ∧ fld p.arg 25 23 = part ∧ fld p.arg 63 27 % 2 ^ 26 < 0x3000000 ∧ fld p.arg 63 27 / 2 ^ 29 % 256 = 0
          ∧ s.cu.fences.contains .package = false ∧ (s.port 0 .write).queue = []
          ∧ ((s.setPort 0 .write { queue := [entry] }).port 0 .write).owned = true)
    ∧ (let p : Pkt := { kind := .mirror, body := List.replicate 256 1 }
       let e : PortEntry := { entry with req := { transfer with data := p.body }, job := .mirror p }
       let s : State := { (atPort .write [e]).modSq 255 fun q => { q with clk := 1 } with cu := { State.reset.cu with mirrorIn := [(p, false)] } }
       (s.port 255 .write).queue.head? = some e ∧ e.owner = true ∧ s.cu.mirrorIn = [(p, false)] ∧ bit s.cu.mirrorCfg 63 = false
         ∧ (s.core 255).due = [] ∧ e.req.beats ≤ e.kept + (s.colClk 255 - (s.port 255 .write).grantAt))
    ∧ (let p := { fromFabric (toCore .resp (word := 4)) with dsad := true, dstUnit := 3 }
       let r : MirrorRow := { seq := 1, part := 0, ta := 0, data := [], ackreq := true }
       let s := bring p { State.reset with cu := { State.reset.cu with sent := [r] } }
       Receives p s ∧ fld p.word 5 0 = 4 ∧ fld p.arg 63 60 = 0 ∧ s.cu.sent.find? (fun r => r.ackreq) = some r
         ∧ fld ({ p with arg := 0x3000000000000000 } : Pkt).arg 63 60 ≠ 0) := by
  unfold Receives State.works; and_intros <;> decide +kernel

/-- A code that R374 lists and one that it does not; a package without and with a record. -/
theorem witness_FailStopRecordsTrigger :
    stopCodes.contains 0x0208 = true ∧ stopCodes.contains 0x0101 = false ∧ State.reset.cu.failstop = false
    ∧ bit (State.reset.cu.failRec[0]) 0 = false
    ∧ (let s := Sys2Proof.Machine.failStop { code := 0x0208, unit := 0, place := 0, saddle := false, detail := 0 } State.reset
       s.cu.failstop = true ∧ bit (s.cu.failRec[0]) 0 = true) := by
  and_intros <;> decide +kernel

/-! ### Signed records

Signatures by the private scalar 1, whose public point is the base point, over records of the least contents; made with an
independent implementation of FIPS 186-5 and the nonce 2. -/

/-- The x coordinate of twice the base point. -/
def sigR : Nat := 0x8d999057ba3d2d969260045c55b97f089025959a6f434d651d207d19fb96e9e4fe0e86ebe0e64f85b96a9c75295df61

def keyG : List Byte := keyBytes p384G
def hashG : List Byte := sha384 keyG
def sign (s : Nat) : List Byte := leBytes 48 sigR ++ leBytes 48 s

/-- ECDSA with P-384 and SHA-384, the message "sample" of RFC 6979, A.2.6: verified, and not with another message. -/
theorem test_ecdsa_rfc6979 :
    let q : Point := {
      x := 0xEC3A4E415B4E19A4568618029F427FA5DA9A8BC4AE92E02E06AAE5286B300C64DEF8F0EA9055866064A254515480BC13
      y := 0x8015D9B72D7D57244EA8EF9AC0C621896708A59367F9DFB9F54CA84B3F1C9DB1288B231C3AE0D4FE7344FD2533264720 }
    let g : Sig := {
      r := 0x94EDBB92A5ECB8AAD4736E56C691916B3F88140666CE9FA73D64C4EA95AD133C81A648152E44ACF96E36DD1E80FABE46
      s := 0x99EF4AEB15F178CEA1FE40DB2603138F130E740A19624526203B6351D0A3A94FA329C145786E679E7B82C71A38628AC8 }
    ecdsaVerify q [0x73, 0x61, 0x6D, 0x70, 0x6C, 0x65] g = true ∧ ecdsaVerify q [0x74, 0x65, 0x73, 0x74] g = false := by
  decide +kernel

/-- SHA-384 of "abc" (FIPS 180-4, examples). -/
theorem test_sha384_abc : (sha384 [0x61, 0x62, 0x63]).take 4 = [0xCB, 0x00, 0x75, 0x3F] := by decide +kernel

/-- HMAC-SHA-384 of RFC 4231, test case 2. -/
theorem test_hmac384_rfc4231 :
    (hmac384 [0x4A, 0x65, 0x66, 0x65] [0x77, 0x68, 0x61, 0x74, 0x20, 0x64, 0x6F, 0x20, 0x79, 0x61, 0x20, 0x77, 0x61, 0x6E, 0x74, 0x20,
      0x66, 0x6F, 0x72, 0x20, 0x6E, 0x6F, 0x74, 0x68, 0x69, 0x6E, 0x67, 0x3F]).take 4 = [0xAF, 0x45, 0xD2, 0xE3] := by decide +kernel

/-- The manifest of a bundle of one chunk of 256 bytes, and its header. -/
def manifest (kind : Byte) : List Byte :=
  fields 384 [(0, [0x41, 0x4D, 0x4E, 0x46]), (4, [1, 0, kind]), (72, [1]), (76, [1]), (80, leBytes 8 256), (368, leBytes 4 256)]

def header (kind : Byte) (s : Nat) : List Byte :=
  fields 512 [(0, [0x41, 0x49, 0x43, 0x58]), (4, [1, 0, kind]), (8, leBytes 8 4096), (16, leBytes 4 384), (20, [1]),
    (24, leBytes 8 8192), (32, leBytes 8 256), (64, sign s), (160, keyG)]

def weightBundle : FetchedManifest :=
  { header := header 2 0x70b288cfcd195e0fd8f0269ba9b5ac21885600aba1a0e0498ee7954b5278601b1efe7c3f748bea311304814e7ebf0e7c
    manifest := manifest 2 }

def programBundle : ProgBundle :=
  { fetched := some {
      header := header 1 0x9f37a8fc6bf6e73c409b8f6c2b3d3f79c7fd724023778f0cc08a0f3283cf1d901a2f60c0653798078696792b37d7d747
      manifest := manifest 1 }
    fingerprint := 0x1000180000000000, sections := [(0, sections0)], digests := [] }

/-- The TLV area of a claiming configuration record with the least entries, and the record. -/
def tlvs : List Byte :=
  let e (ty : Nat) (v : List Byte) : List Byte := slice (leBytes 2 ty ++ leBytes 2 v.length ++ v) 0 ((v.length + 11) / 8 * 8)
  e 0x8001 hashG ++ e 0x8002 (List.replicate 16 0) ++ e 0x8003 (List.replicate 54 0) ++ e 0x8004 [1, 0] ++ e 0x8005 [1] ++ e 0x8006 [0]
    ++ e 0x8007 [1] ++ e 0x8008 (List.replicate 5 0) ++ e 0x8009 hashG

def configRecord : List Byte :=
  fields 256 [(0, [0x4B, 0x58, 0x43, 0x46]), (4, [1, 0, 1]), (8, leBytes 4 248), (16, keyG),
    (112, sign 0xb7f7c986a90ebd0fb438ed52366103650c80ca0ab007e1c3803ae52a0ea88d7e72f230cdb06dfeb6bfef5e8a8832eb6f)] ++ tlvs

def firmwareCode : List Byte := (List.range 32).map fun i => BitVec.ofNat 8 i

/-- An image of version 3 that burns MIN_SVN. -/
def firmwareHeader : List Byte :=
  fields 512 [(0, [0x4B, 0x58, 0x46, 0x57]), (4, [1]), (8, [32]), (12, [3]), (20, [1]), (64, sha384 firmwareCode),
    (112, sign 0xddece41bdbcd3c02f910515e00f82863888a2db6d26150ad1ffed4c5e13d894b30fabc7865d05904d9610861b496b913), (208, keyG)]

def debugCert : List Byte :=
  fields 256 [(0, [0x4B, 0x58, 0x44, 0x42]), (8, [1]), (64, keyG),
    (160, sign 0x4281e383de43479386654016dd6fd16741031d316cbc0efed7fea83442c258f3ba97f881eb01726a76e936ec3cfb706a)]

/-- A session that the key of the record proves. -/
def session0 : Session := { num := 1, keyIdx := 0, hostPub := p384G, devPriv := 1, challenge := List.replicate 48 0 }
def proof0 : Sig :=
  { r := sigR
    s := 0xac14d3e1615f73aed3a9bfe4b7b8a39a8da3ad3866e45e752d8ee4b3caf74e8fc03c8ae0b33c45c992f4452669f66ac2 }

/-- The reader of a load whose manifest has been fetched: good, not good and not fetched; a member with manifest rows and without;
replies, mismatches and ABORT. -/
def loading (l : WsLoad) (s : State := State.reset) : State := { s with
  prog := some prog0
  ms := { s.ms with record := configRecord }
  ws := { s.ws with load := l, sets := s.ws.sets.set 5 { mode := 2, digest := List.replicate 48 0 } } }

theorem witness_WeightLoadsArmOrFail :
    let s := loading { phase := 1, reader := true, set := 5, wgen := 9, dual := true, length := 8448 }
    s.cu.failstop = false ∧ s.ws.load.reader = true ∧ s.ws.load.phase = 1 ∧ weightBundle.header.length = 512 ∧ s.ws.load.direct = false
      ∧ s.others = [7] ∧ s.ws.gens.toList.any (fun g => g.st == 0) = true
      ∧ s.ws.gens.toList.any (fun g => g.st != 0 && g.wgen == s.ws.load.wgen) = false
      ∧ manifestReason s 5 weightBundle.header weightBundle.manifest (some 8448) = none
      ∧ manifestReason s 5 weightBundle.header weightBundle.manifest (some 8447) = some 1 := by
  and_intros <;> decide +kernel

/-- A weight control message of the load of generation 9 into set 5. -/
def ctrl (msg reason : Nat) : Pkt :=
  { fromFabric (toCore .wsCtrl (arg := BitVec.ofNat 64 (msg * 2 ^ 56 + 9 * 2 ^ 40 + 5 * 2 ^ 36 + reason * 2 ^ 8))) with dsad := true, dstUnit := 2 }

def arming (bytes : List Byte) : State :=
  bring (ctrl 1 0) (loading { phase := 1, set := 5, wgen := 9, mrows := (List.range 4).map fun i => (i, slice bytes (256 * i) 256) })

theorem witness_WeightLoadsArmOrFail_arm :
    Receives (ctrl 1 0) (arming []) ∧ isCtrl (ctrl 1 0) 1 = true ∧ (arming []).ws.load.running = true ∧ fld (ctrl 1 0).arg 55 40 = 9
      ∧ fld (ctrl 1 0).arg 39 36 = 5 ∧ (vget (arming []).ws.sets 5).mode ≠ 0
      ∧ (let h (s : State) := slice (rowBytes s.ws.load.mrows) 0 512
         let m (s : State) := slice (rowBytes s.ws.load.mrows) 512 (recFld (h s) 16 4)
         manifestReason (arming []) 5 (h (arming [])) (m (arming [])) none = some 1
         ∧ (let s := arming (weightBundle.header ++ weightBundle.manifest)
            manifestReason s 5 (h s) (m s) none = none)) := by
  rw [receives_iff]; and_intros <;> decide +kernel

def replying (msg reason : Nat) (reader : Bool) : State :=
  bring (ctrl msg reason) (loading { phase := 2, set := 5, wgen := 9, reader, nacks := [(7, 0)] })

theorem witness_WeightLoadsArmOrFail_replies :
    (∀ msg ∈ [2, 6, 7], ∀ reason ∈ [0, 1], ∀ reader ∈ [true, false],
        Receives (ctrl msg reason) (replying msg reason reader) ∧ isCtrl (ctrl msg reason) msg = true
          ∧ ofLoad (replying msg reason reader) (ctrl msg reason) = true ∧ fld (ctrl msg reason).arg 15 8 = reason)
    ∧ ((loadMembers (replying 2 0 true)).all fun m => [(7 : BitVec 16)].contains m) = false
    ∧ ([((7 : BitVec 16), 0)].filter (· == ((ctrl 6 0).srcSvc, fld (ctrl 6 0).arg 35 16))).length < 2
    ∧ 2 ≤ ([((7 : BitVec 16), 0), (7, 0)].filter (· == ((ctrl 6 0).srcSvc, fld (ctrl 6 0).arg 35 16))).length := by
  unfold Receives State.works; and_intros <;> decide +kernel

/-- A load of generation 9 into set 5 that writes one chunk of two rows: its member, and its reader. -/
def word0 : BitVec 128 := BitVec.ofNat 128 (5 * 2 ^ 124)
def entry0 : Placement := Placement.ofWord word0
def prog1 : Program := { prog0 with sections := [(0, { sections0 with placement := [word0] }), (7, sections0)] }
def longManifest : List Byte := fields 384 [(72, [1]), (76, [1]), (80, leBytes 8 512), (368, leBytes 4 512)]

def member (st : BitVec 2) (l : WsLoad) : State :=
  let s := loading { l with set := 5, wgen := 9, manifest := longManifest }
  { s with
    prog := some prog1
    ws := { s.ws with
      gens := s.ws.gens.set 0 { st, wgen := 9 }, sets := s.ws.sets.set 5 { mode := 2, copy0 := 1, digest := List.replicate 48 0 } } }

/-- Row 1 of chunk 0. -/
def chunkPkt : Pkt :=
  { fromFabric (toCore .wsChunk (arg := BitVec.ofNat 64 (1 * 2 ^ 22 + 9 * 2 ^ 6 + 5 * 2 ^ 2)) (body := List.replicate 256 1)) with
    dsad := true, dstUnit := 2 }

theorem witness_WeightsMoveAndSwitch :
    let s := bring chunkPkt (member 1 { phase := 4, chunks := [{ chunk := 0 }], dual := true })
    Receives chunkPkt s ∧ fld chunkPkt.arg 63 44 = 0 ∧ fld chunkPkt.arg 43 22 = 1 ∧ s.ws.load.wgen = BitVec.ofNat 16 (fld chunkPkt.arg 21 6)
      ∧ s.ws.load.set = BitVec.ofNat 4 (fld chunkPkt.arg 5 2) ∧ s.ws.load.running = true ∧ copyLoading s = true ∧ loadCopy s = false
      ∧ s.ws.load.chunks.find? (fun k => k.chunk == 0 && !k.done) = some { chunk := 0 }
      ∧ (s.placementOf s.svc).filter (fun e => e.set == s.ws.load.set && e.chunk.toNat == 0
          && decide (4 * e.off.toNat ≤ 1 ∧ 1 < 4 * (e.off.toNat + e.len1.toNat + 1))) = [entry0]
      ∧ (∃ i, i ≠ 1 ∧ 256 * i < wsChunkLen s.ws.load.manifest 0 ∧ ∀ r ∈ ({ chunk := 0 } : KeptChunk).rows, r.1 ≠ i) := by
  refine ⟨(receives_iff _ _).mpr (by decide +kernel), by decide +kernel, by decide +kernel, by decide +kernel, by decide +kernel,
    by decide +kernel, by decide +kernel, by decide +kernel, by decide +kernel, by decide +kernel, 0, by decide, by decide +kernel, by decide⟩

theorem witness_WeightsMoveAndSwitch_reader :
    (let s := member 1 { phase := 4, reader := true, dual := true, armed := [0, 7] }
     s.cu.failstop = false ∧ s.ws.load.reader = true ∧ s.ws.load.running = true ∧ s.ws.load.manifest ≠ [] ∧ allArmed s = true
       ∧ s.ws.load.dual = true ∧ (s.ws.load.resends.any fun x => x.2 == 0) = false ∧ nextChunk s = some 0)
    ∧ (let s := member 1 { phase := 4, reader := true, armed := [0, 7] }
       s.ws.load.dual = false ∧ s.ws.load.went = false ∧ allArmed s = true)
    ∧ (let s := bring (ctrl 3 0) (member 1 { phase := 2, dual := true })
       Receives (ctrl 3 0) s ∧ isCtrl (ctrl 3 0) 3 = true ∧ ofLoad s (ctrl 3 0) = true
         ∧ (s.ws.gens.toList.any fun g => g.st == 1 && g.wgen == s.ws.load.wgen) = true) := by
  and_intros <;> first | exact (receives_iff _ _).mpr (by decide +kernel) | decide +kernel

/-- VERIFIED from the last keeper and from one of two; RETIRE of a generation whose step may still run. -/
theorem witness_WeightsMoveAndSwitch_replies :
    (let s := bring (ctrl 5 0) (member 1 { phase := 4, reader := true, dual := true, armed := [0, 7], verified := [0], next := 1 })
     Receives (ctrl 5 0) s ∧ isCtrl (ctrl 5 0) 5 = true ∧ ofLoad s (ctrl 5 0) = true ∧ isCtrl (ctrl 4 0) 4 = true
       ∧ ((loadKeepers s).all fun m => ((ctrl 5 0).srcSvc :: s.ws.load.verified).contains m) = true
       ∧ ((loadKeepers s).all fun m => [(ctrl 5 0).srcSvc].contains m) = false
       ∧ s.ws.own = [] ∧ allArmed s = true ∧ s.ws.load.manifest ≠ [] ∧ manifestChunks s.ws.load.manifest ≤ s.ws.load.next)
    ∧ (let s (n : BitVec 24) : State := bring (ctrl 8 0) { member 3 {} with ws := { (member 3 {}).ws with latches := n, latchWgen := 9 } }
       Receives (ctrl 8 0) (s 1) ∧ (s 1).ws.latches ≠ 0 ∧ (s 0).ws.latches = 0 ∧ (s 1).ws.latchWgen = BitVec.ofNat 16 (fld (ctrl 8 0).arg 55 40)) := by
  and_intros <;> first | exact (receives_iff _ _).mpr (by decide +kernel) | decide +kernel

/-- Session 1, proved with a key of zeros. -/
def session (x : Session) : State := { State.reset with ms := { State.reset.ms with phase := 9, sessions := [x] } }
def request (seq : BitVec 32) : Kdmp :=
  { auth := true, session := 1, seq, msg := [1, 2, 3], 
    tag := [0xE9, 0x1E, 0x51, 0xDE, 0x05, 0x08, 0x3C, 0x03, 0x5F, 0x22, 0x4F, 0x7F, 0xED, 0xF0, 0xF0, 0x24] }

theorem witness_KdmpSessionsAct :
    Authentic (request 1) (session { session0 with key := some (List.replicate 48 0) })
    ∧ Authentic (request 6) (session { session0 with key := some (List.replicate 48 0), kept := some (0x21, 5, .ok, []) })
    ∧ (let s := session { session0 with key := some (List.replicate 48 0), kept := some (0x21, 5, .ok, []) }
       s.firmwareRuns = true ∧ s.session 2 = none ∧ (s.session 1).isSome = true ∧ (request 5).seq = 5 ∧ (request 4).seq.toNat < 5
         ∧ session0.key = none ∧ (hmac384 (List.replicate 48 0) [4]).take 16 ≠ (request 1).tag) := by
  refine ⟨⟨by decide +kernel, _, _, rfl, rfl, rfl, by decide +kernel, trivial⟩, ⟨by decide +kernel, _, _, rfl, rfl, rfl, by decide +kernel, by decide⟩, ?_⟩
  and_intros <;> decide +kernel

/-- Firmware runs and session 1 is proved with a key of zeros; the body of a WS_LOAD of set n and generation 9, and a request with it and the
length of a bundle. -/
def proved (s : State) : State := { s with ms := { s.ms with phase := 9, sessions := [{ session0 with key := some (List.replicate 48 0) }] } }

def body (n : Nat) : List Byte := fields 32 [(0, [9, 0, BitVec.ofNat 8 n])]

def asks (n len : Nat) : Kdmp :=
  let msg := List.replicate 32 0 ++ slice (body n) 0 16 ++ leBytes 8 len ++ slice (body n) 24 8
  { auth := true, session := 1, seq := 1, msg, tag := (hmac384 (List.replicate 48 0) msg).take 16 }

theorem authentic_asks (n len : Nat) {s : State} (f : s.ms.sessions = [{ session0 with key := some (List.replicate 48 0) }])
    (g : s.firmwareRuns = true) : Authentic (asks n len) s := by
  refine ⟨g, { session0 with key := some (List.replicate 48 0) }, _, ?_, rfl, rfl, rfl, trivial⟩
  simp [State.session, f, asks, session0]

theorem witness_KdmpSessionsAct_requests :
    (∀ n len, Authentic (asks n len) (proved State.reset))
    ∧ (let s : State := proved { State.reset with ms := { State.reset.ms with owner := hashG } }
       s.cu.failstop = false ∧ s.ms.ownLoad = false ∧ loadBusy s = false ∧ loadBusy (proved running) = true
         ∧ programReason s programBundle (recFld (asks 5 8448).msg 48 8) = none
         ∧ programReason s programBundle (recFld (asks 5 8447).msg 48 8) = some 1)
    ∧ (∃ s : State, ∀ c, s.fusedOff c = false → (s.core c).sq.st = .ready ∨ (s.core c).sq.st = .done)
    ∧ (let s := proved (member 0 {})
       let b := WsLoadBody.ofBytes (body 5)
       b.set.toNat < 16 ∧ b.wgen = 9 ∧ (vget s.ws.sets b.set.toNat).mode ≠ 0 ∧ s.ws.load.running = false
         ∧ (s.ws.gens.toList.any fun g => g.st == 0) = true ∧ (s.ws.gens.toList.any fun g => g.st != 0 && g.wgen == 9) = false
         ∧ 16 ≤ (WsLoadBody.ofBytes (body 16)).set.toNat)
    ∧ (member 1 { phase := 4, reader := true }).ws.load.reader = true ∧ State.reset.ws.load.reader = false
    ∧ ({ State.reset.fsvc with held := true } : FaultSvc).held = true ∧ State.reset.fsvc.held = false
    ∧ State.reset.ms.warm = none ∧ ({ State.reset.ms with warm := some 4 } : Ms).warm ≠ none := by
  refine ⟨fun n len => authentic_asks n len rfl (by decide +kernel), ?_,
    ⟨{ State.reset with cores := Vector.replicate 256 { sq := { st := .ready } } }, by decide +kernel⟩, ?_⟩
  · and_intros <;> decide +kernel
  · and_intros <;> decide +kernel

/-- A package in a phase of the boot. -/
def inPhase (n : Nat) (f : Ms → Ms := id) : State := { State.reset with ms := f { State.reset.ms with phase := BitVec.ofNat 8 n } }

theorem witness_BootRuns :
    (∀ n ∈ [1, 3, 4, 6], (inPhase n).inPhase n = true) ∧ (inPhase 1).ms.lastFault = 0 ∧ (inPhase 1).cu.failstop = false
    ∧ (inPhase 8).ms.phase.toNat ∈ [1, 2, 3, 4, 5, 7, 8] ∧ (inPhase 9).ms.phase.toNat ∉ [1, 2, 3, 4, 5, 7, 8]
    ∧ recordFault [] [] = some 0x0A01 ∧ recordFault [] configRecord = none
    ∧ (inPhase 6).ms.download = none ∧ firmwareFault (inPhase 6 fun m => { m with fwHash := hashG }).ms firmwareHeader [(0, firmwareCode)] = none
    ∧ firmwareFault (inPhase 6).ms firmwareHeader [] = some 0x0A05
    ∧ (inPhase 6 fun m => { m with download := some (1, firmwareHeader, []) }).ms.download = some (1, firmwareHeader, []) := by
  and_intros <;> decide +kernel

theorem witness_SessionsOpenAndAttest :
    (inPhase 9).firmwareRuns = true ∧ onCurve p384G = true ∧ onCurve { x := 1, y := 1 } = false
    ∧ (session session0).session 1 = some session0 ∧ proofOk { State.reset.ms with record := configRecord } session0 p384G proof0 = true
    ∧ proofOk State.reset.ms session0 p384G proof0 = false
    ∧ certOk { State.reset.ms with dbgHash := hashG, nonce := List.replicate 6 0 } debugCert = true ∧ certOk State.reset.ms [] = false := by
  and_intros <;> decide +kernel

theorem witness_ResetsAndControl :
    State.reset.cu.failstop = false ∧ (∀ n ∈ [7, 8], (inPhase n).inPhase n = true) ∧ (inPhase 9).inPhase 7 = false ∧ (inPhase 9).inPhase 8 = false
    ∧ State.reset.sealed = false ∧ State.reset.ms.lastFault = 0 ∧ (inPhase 9).firmwareRuns = true ∧ (inPhase 9).ms.kicked = false
    ∧ (inPhase 9).resetting = false ∧ (inPhase 9 fun m => { m with warm := some 5 }).resetting = true
    ∧ (let s : State := { inPhase 9 fun m => { m with warm := some 5 } with cu := { State.reset.cu with fences := [.package] }, pinc := 0xFFFE }
       s.cu.failstop = false ∧ s.cu.fences = [.package] ∧ packageDrained s = true ∧ s.ms.warm = some 5 ∧ s.pinc ≠ 0xFFFF)
    ∧ State.reset.ms.resetN = false ∧ bit (State.reset.cu.failRec[0]) 0 = false := by
  and_intros <;> decide +kernel

/-- A program that is being loaded, with a chunk that matches its digest and one that does not. -/
theorem witness_ProgramLoadCompletes :
    let b : ProgBundle := { programBundle with digests := [sha384 [1]] }
    let s : State := { State.reset with ms := { State.reset.ms with loading := some b } }
    (s.cu.failstop = false ∧ s.ms.loading = some b ∧ b.sections.lookup s.svc = some sections0 ∧ [[1]].map sha384 = b.digests
      ∧ [[2]].map sha384 ≠ b.digests ∧ s.ms.writing = false ∧ s.fsvc.reload = false ∧ s.cu.fences = [])
    ∧ (∀ c, coreDrained s c = true ∧ (∀ e, e < 32 → (vget (s.core c).cq.send e).st ≠ .opened)
        ∧ ∀ h, h < 16 → (vget (s.core c).cq.handles h).valid = false)
    ∧ (∀ q, (s.queue q).st = .closed ∧ (s.queue q).contribs = [] ∧ (s.queue q).readers = [])
    ∧ ({ s.ms with writing := true } : Ms).writing = true := by
  refine ⟨?_, by decide +kernel, ?_, rfl⟩
  · and_intros <;> first | rfl | decide +kernel
  · have l : ∀ c k, let q := State.reset.queue (.local c k); q.st = .closed ∧ q.contribs = [] ∧ q.readers = [] := by decide +kernel
    have d : ∀ n, let q := State.reset.queue (.saddle n); q.st = .closed ∧ q.contribs = [] ∧ q.readers = [] := by decide +kernel
    rintro (⟨c, k⟩ | n)
    · exact l c k
    · exact d n

/-- The link down and up; a good frame of each kind, at the shortest and longest length and beyond; the KDMP store full; PTP; a queue
pair with six and with seven retries. -/
theorem witness_HostPortTakesFrames :
    (let f (kind len : Nat) : Frame := { badFcs := false, addrOk := true, fragment := false, vid := none, kind, udpPort := 36120, len }
     let bad (f : Frame) : Bool := f.badFcs || !f.addrOk || f.fragment || decide (f.len < 64) || decide (9216 < f.len)
     bad (f 1 64) = false ∧ bad (f 1 9216) = false ∧ bad (f 1 63) = true ∧ bad (f 1 9217) = true ∧ (f 1 64).vid = none
     ∧ (let h : Hp := { State.reset.hp with portStatus := 2, kdmp := [262080], net := 0x1000 }
        h.linkUp = true ∧ bit h.net 12 = true ∧ h.kdmp.foldl (· + ·) 0 + 64 ≤ 262144 ∧ 262144 < h.kdmp.foldl (· + ·) 0 + 65)
     ∧ State.reset.hp.linkUp = false ∧ 2 < (f 3 64).kind)
    ∧ bit State.reset.fi.timeCfg 47 = false ∧ bit ({ State.reset.fi with timeCfg := 0x0000800000000000 } : Fi).timeCfg 47 = true
    ∧ ((vget State.reset.hp.qps 1023).error = false ∧ (vget State.reset.hp.qps 1023).retries < 7
      ∧ 7 ≤ (vget (State.reset.modQp 1023 fun q => { q with retries := 7 }).hp.qps 1023).retries
      ∧ (vget (State.reset.modQp 1023 fun q => { q with error := true }).hp.qps 1023).error = true) := by
  and_intros <;> decide +kernel

/-- An admitter with section 15 of 128 records, whose first record `r` has arrived; class 0 has slots and a queue of 4. -/
def asking (r : List Byte) (totalSlots : Nat) : State := { State.reset with
  prog := some prog0
  hp := { State.reset.hp with
    portStatus := 2, admCfg := 0x0001100000000040 ||| 0x0000000100000000, admCtrl := 1, totalBlocks := 100, freeBlocks := 100
    cls := State.reset.hp.cls.set 0 (BitVec.ofNat 64 (totalSlots * 2 ^ 44 + 4 * 2 ^ 28))
    ring := Mem.write [] 0 r
    sections := State.reset.hp.sections.set 15 { cfg := 0x8400000000000000, arrived := [0] } } }

/-- A request of class 0 with 16 prompt tokens in host memory that wants 16 more. -/
def record0 : List Byte := fields 256 [(2, [1]), (4, [16]), (8, [7]), (24, [16]), (32, [0, 16])]

theorem witness_RequestsAreAnswered :
    (let s := asking [] 8
     reachable s 15 = true ∧ reachable s 0 = false ∧ record0.length = 256 ∧ (s.sec 15).size = 128 ∧ bit (s.sec 15).cfg 62 = false
       ∧ (s.sec 15).deferred.any (fun n => n % 128 == 127) = false ∧ unexamined (s.sec 15) s.hp.ring 127 = false)
    ∧ State.reset.hp.admitter = false
    ∧ (let s := asking record0 8
       s.hp.admitter = true ∧ (∀ c, c < 4 → vget s.hp.queues c = [])
       ∧ ((List.range 16).map fun i => (s.hp.rotate + i) % 16).find? (recordPresent s) = some 15
       ∧ ((List.range 16).map fun i => i % 16).find? (recordPresent State.reset) = none
       ∧ (s.sec 15).record s.hp.ring 0 = record0 ∧ requestReason s record0 = none ∧ recFld record0 2 1 = 1 ∧ (s.sec 15).known = []
       ∧ s.hp.deferAll = false ∧ mayTake s 0 (chargeOf s.hp record0) = some 0)
    ∧ (let s := asking (slice record0 0 256) 0
       requestReason s record0 = some 2)
    ∧ (let s : State := { asking record0 8 with hp := { (asking record0 8).hp with freeBlocks := 0 } }
       mayTake s 0 (chargeOf s.hp record0) = none ∧ 0 < fld (vget s.hp.cls 0) 43 28 ∧ (s.sec 15).deferred.length < (s.sec 15).size - 64)
    ∧ (let s := (asking record0 8).modSec 15 fun x => { x with statusRecs := [{ vseq := 63, journal := 0, data := [] }] }
       (s.sec 15).waiting false = [{ vseq := 63, journal := 0, data := [] }] ∧ mayWrite s 15 { vseq := 63, journal := 0, data := [] } = true
         ∧ mayWrite s 15 { vseq := 64, journal := 0, data := [] } = false ∧ (s.sec 15).waiting true = []) := by
  and_intros <;> decide +kernel

/-- Slot 511 in a state, and its notice at the head of a saddle receive endpoint. -/
def slot511 (x : Slot) (admitter : Bool := true) : State := (State.reset.modSlot 511 fun _ => x) |> fun s =>
  { s with hp := { s.hp with admCfg := if admitter then 0x00038000FFFF0040 else 0, ringCfg := 0x0000001000000001 ||| 0xFFFFFFFF } }

def noticed (bytes : List Byte) (e : Fin 256 := 0) : State :=
  let s := slot511 { st := .opened }
  { s with hp := { s.hp with nrecv := s.hp.nrecv.set e { st := .opened, wptr := 512 }, notice := Mem.write [] 32 bytes } }

theorem witness_SlotsRun :
    (let x : Slot := { st := .opening, awaiting := [3] }
     (slot511 x).cu.failstop = false ∧ (vget (slot511 x).hp.slots 511).st = .opening ∧ (vget (slot511 x).hp.slots 511).prompt = false
       ∧ (slot511 x).hp.admitter = true ∧ (slot511 x false).hp.admitter = false ∧ (vget (slot511 x).hp.slots 511).awaiting ≠ []
       ∧ (vget State.reset.hp.slots 511).st ≠ .opening ∧ (vget (slot511 { tokens := [1] }).hp.slots 511).tokens ≠ [])
    ∧ headPayload (noticed (noticeHead 4 511) 255) 255 8 = some (noticeHead 4 511) ∧ headPayload State.reset 255 8 ≠ some (noticeHead 4 511)
    ∧ noticeAt (noticed (noticeHead 2 511)) (noticeHead 2 511) = some 0 ∧ noticeAt (noticed (noticeHead 3 511)) (noticeHead 3 511) = some 0
    ∧ (let o : OpenNotice := { slot := 511, wgen := 9, blocks := 1, slotGen := 1, sec := 15, request := record0, entries := [] }
       let bytes := openNotice o.slot.toNat o.wgen o.blocks o.slotGen o.sec.toNat o.request
       noticeAt (noticed bytes) bytes = some 0 ∧ noticeAt State.reset bytes = none) := by
  and_intros <;> decide +kernel

/-- Slot 511 with a record of a kind at the head of the emit ring of core 0. -/
def emitting (kind : Nat) (mirror : Bool := false) : State :=
  let s := slot511 { st := .opened, lastPos := 5, sec := 15 }
  let s := s.modRecv (.core 0) 0 fun _ => { st := .opened, wptr := 256, peer := { unit := 1 } }
  let s := s.cmWrite 0 32 ([BitVec.ofNat 8 kind, 0] ++ leBytes 2 511 ++ leBytes 4 6 ++ leBytes 4 77 ++ List.replicate 20 0)
  { s with cu := { s.cu with mirrorCfg := if mirror then 0x8000000000000000 else 0, tapped := 1 } }

def emitted : EmitRec := { core := 1, reason := 0, slot := 511, pos := 6, token := 77, flags := 0, reservedZero := true }

theorem witness_SlotsRun_emit :
    ((emitting 1).emits 1 emitted ∧ (emitting 2).emits 2 emitted ∧ (emitting 3).emits 3 emitted)
    ∧ recordRoom (emitting 1) 15 true = true ∧ ((emitting 1).sec 15).tokenRecs = [] ∧ (5#32).toNat < emitted.pos.toNat
    ∧ bit emitted.flags 0 = false ∧ 0 < fld (emitting 1).hp.ringCfg 31 0 ∧ (vget (emitting 1).hp.slots 511).tokens.length < 5
    ∧ ({ emitted with pos := 5 } : EmitRec).pos.toNat ≤ (5#32).toNat
    ∧ (emitting 2).mirrorOn = false ∧ (emitting 2 true).mirrorOn = true
    ∧ (emitting 2 true).cu.committed < (emitting 2 true).hp.readyMark.getD (emitting 2 true).cu.tapped := by
  refine ⟨⟨?_, ?_, ?_⟩, ?_⟩
  case refine_4 => and_intros <;> decide +kernel
  · exact emits_of (b := (emitting 1).cmRead 0 32 32) (n := 0) (by decide +kernel) (by and_intros <;> decide +kernel)
  · exact emits_of (b := (emitting 2).cmRead 0 32 32) (n := 0) (by decide +kernel) (by and_intros <;> decide +kernel)
  · exact emits_of (b := (emitting 3).cmRead 0 32 32) (n := 0) (by decide +kernel) (by and_intros <;> decide +kernel)

/-- A micro-batch of slot 511, ready at time 0; and none. -/
theorem witness_SlotsRun_batch :
    (let s := slot511 { st := .opened, readyNs := some 0 }
     followLive s = s ∧ readyRows s.hp = [(511, 0)] ∧ batchGen s.hp [(511, 0)] = 0 ∧ (vget s.hp.slots 511).wgen = 0
       ∧ batchRows s [(511, 0)] = some [(511, 0)] ∧ (batchGroups (fld s.hp.admCfg 55 49) [(511, 0)]).contains 63 = true)
    ∧ batchRows (slot511 {}) [] = none := by
  refine ⟨⟨followLive_self _ fun g => ?_, ?_, ?_⟩, by decide +kernel⟩
  · have this : ∀ e ∈ (slot511 { st := .opened, readyNs := some 0 }).ws.gens.toList, e = ({} : WsGen) := by decide +kernel
    rw [List.any_eq_false]
    intro e he
    simp [this e he]
  · rw [readyRows_eq]; decide +kernel
  · and_intros <;> decide +kernel

/-- Saddle endpoint 255: closed with a good ring, not closed, OPEN with and without the credit of a CLOSE record; a command under way. -/
theorem witness_SaddleEndpointsOpenAndClose :
    (let s (w : Word) : State := { State.reset with hp := { State.reset.hp with nepWord := w } }
     (s 0).cu.failstop = false ∧ bit (s 0).hp.nepCmd 63 = false ∧ (vget (s 0).hp.nrecv 255).st = .closed ∧ (vget (s 0).hp.nrecv 255).waiting = none
       ∧ nepRingOk (s 0x00000004003F0000) 255 0x00000004003F0000 = true
       ∧ (vget (s 0).hp.nsend 255).st = .closed ∧ fld (BitVec.ofNat 64 (65536 * 2 ^ 23)) 39 23 ≤ 65536)
    ∧ (let s (n : Nat) : State := { State.reset with hp := { State.reset.hp with
         nepCmd := 0, nsend := State.reset.hp.nsend.set 255 { st := .opened, credit := n }, nrecv := State.reset.hp.nrecv.set 255 { st := .listening } } }
       (vget (s 256).hp.nsend 255).st = .opened ∧ 256 ≤ (vget (s 256).hp.nsend 255).credit ∧ (vget (s 255).hp.nsend 255).credit < 256
         ∧ (s 0).hp.notices.any (fun m => m.1 == 255) = false ∧ (vget (s 0).hp.nrecv 255).st ≠ .closed)
    ∧ bit ({ State.reset.hp with nepCmd := 0x8000000000000000 } : Hp).nepCmd 63 = true := by
  and_intros <;> decide +kernel

theorem witness_RegistersHoldWrites :
    (0x02000000C4#40).toNat % 8 ≠ 0 ∧ State.reset.cu.failstop = false ∧ (0x02000000C0#40).toNat = 0x02000000C0
    ∧ (State.reset.pn.arbMode = false ∧ ({ State.reset.pn with arbMode := true } : Pn).arbMode = true ∧ (0x0400000010#40).toNat = 0x0400000010)
    ∧ ({ State.reset with sealed := true } : State).sealed = true ∧ (0x0000200040#40).toNat = 0x0000200040
    ∧ stopped.cu.failstop = true ∧ (0x02000000C0#40).toNat % 8 = 0
    ∧ (0x02000000C0#40).toNat ∉ [0x0100000008, 0x0100000010, 0x0100000018, 0x0100000020, 0x10]
    ∧ State.reset.ms.periodMs = 0 ∧ ({ State.reset.ms with periodMs := 1 } : Ms).periodMs ≠ 0 := by
  and_intros <;> decide +kernel

/-- A package with a core in RUN and nothing timed, in REST, in a hold, and in a fail-stop. -/
theorem witness_IdleTickMovesOnlyTime :
    (running.pending = [] ∧ running.cu.failstop = false ∧ running.ck.hold = none ∧ running.ck.rest = false ∧ (∀ c, running.lively c = false)
      ∧ ((running.core 0).dma.queues.toList.any fun q => q.descs.any (·.ended)) = false)
    ∧ ({ running.ck with rest := true } : Ck).rest = true ∧ ({ running.ck with hold := some (10, 1) } : Ck).hold.isSome = true
    ∧ stopped.pending = [] ∧ stopped.cu.failstop = true := by
  and_intros <;> decide +kernel

/-- One lane, 256 lanes, and 512 lanes whose result lies on its operands. -/
theorem witness_VectorLanesAndMoves :
    busy.calm 0
    ∧ (∀ op ∈ ([0x40, 0x41, 0x42, 0x43, 0x44, 0x45, 0x48, 0x49, 0x4A, 0x4B, 0x4C, 0x4D, 0x50, 0x51, 0x52, 0x53, 0x54, 0x55, 0x56, 0x57, 0x58,
          0x59, 0x5B, 0x5C, 0x5D, 0x5E, 0x5F] : List (BitVec 8)),
        IssuesAlone op (word 4 (put [(42, 255), (24, 32)])) busy ∧ IssuesAlone op (word 4 0) busy)
    ∧ (∀ op ∈ ([0x68, 0x69, 0x6A, 0x6B, 0x6C, 0x6D] : List (BitVec 8)), IssuesAlone op (word 5 0) busy)
    ∧ (∀ op ∈ ([0x70, 0x71, 0x72, 0x73] : List (BitVec 8)), IssuesAlone op (word 5 (put [(2, 1)])) busy)
    ∧ IssuesAlone 0x50 (word 4 (put [(42, 511)])) busy ∧ ({ base := 0, per := 1024, total := 2048 } : Region).apart { base := 0, per := 1024, total := 2048 }
    ∧ IssuesAlone 0x7C (word 5 (put [(44, 255)])) busy ∧ IssuesAlone 0x7D (word 5 0) busy := by
  unfold IssuesAlone State.canIssue State.works State.calm Region.apart; and_intros <;> decide +kernel

/-- A command that a package in a fail-stop takes. -/
theorem witness_FailStopHoldsUntilReset :
    let s : State := { stopped with pending := [.mgmtRegisterWrite 0x0100000008 0] }
    s.cu.failstop = true ∧ resets (.mgmtRegisterWrite 0x0100000008 0) = false ∧ ∃ t, step s = .next t := by
  refine ⟨by decide +kernel, by decide +kernel, _, rfl⟩

theorem witness_CommandsLeaveTheirQueue : ∃ t, exec .beatTimer State.reset = .next t := ⟨_, rfl⟩

theorem witness_StepKeepsMemoriesCanonical : ∃ t, State.reset.tier = [] ∧ step State.reset = .next t := ⟨_, rfl, rfl⟩

/-- Tile 0 at the head of the queue, with INT32 and with FP32 accumulation. -/
theorem witness_VectorConversions :
    busy.calm 0
    ∧ (∀ op ∈ ([0x60, 0x61, 0x62, 0x63, 0x66] : List (BitVec 8)), IssuesAlone op (word 4 0) busy)
    ∧ IssuesAlone 0x64 (word 4 (put [(42, 31), (38, 3)])) busy ∧ IssuesAlone 0x65 (word 4 (put [(42, 31), (38, 7)])) busy
    ∧ IssuesAlone 0x74 (word 5 0) busy ∧ IssuesAlone 0x76 (word 5 0) busy
    ∧ ((busy.core 0).me.ftq = 0x8000000000000000 :: [] ∧ (∀ f ∈ [0, 10], IssuesAlone 0x78 (word 5 (put [(52, f), (21, 1)])) busy)
      ∧ fld (0x8000000000000000 : Word) 62 59 = 0 ∧ bit (vget (busy.core 0).me.tiles 0).desc 53 = false
      ∧ ∀ n, n < 8 → (vget (busy.core 0).me.tiles n).st ≠ .done)
    ∧ (let s := busy.modMe 0 fun m => { m with tiles := m.tiles.set 0 { st := .queued, desc := 0x0020000000000000 } }
       s.calm 0 ∧ (s.core 0).me.ftq = 0x8000000000000000 :: [] ∧ IssuesAlone 0x78 (word 5 (put [(52, 10)])) s
         ∧ bit (vget (s.core 0).me.tiles 0).desc 53 = true ∧ (s.core 0).sq.fault = 0) := by
  unfold IssuesAlone State.canIssue State.works State.calm; and_intros <;> decide +kernel

/-! ### Ill-formed commands -/

def issue0 : Pkt := { kind := .chRow, body := List.replicate 32 0 }
def image0 : CoreImage := { core := 0, pc := 0, bundles := [(0, List.replicate 64 0)], regs := [], cm := [] }
def kdmp0 : Kdmp := { auth := true, session := 1, seq := 0, msg := [], tag := List.replicate 16 0 }

/-- A body that is not of whole flits or too long; a packet of another kind. -/
theorem test_wf_packets :
    (Instr.messageRowArrival issue0).wf = true ∧ (Instr.messageRowArrival { issue0 with body := [1] }).wf = false
    ∧ (Instr.messageRowArrival { issue0 with body := List.replicate 288 0 }).wf = false ∧ (Instr.creditReturn issue0).wf = false := by
  decide +kernel

/-- Bytes of an access that do not match its length; an access of no bytes; a requester that is not asynchronous; no beats; an address
that names no byte. -/
theorem test_wf_accesses :
    (Instr.asyncArrival 0 { addr := 0, len := 32, write := true, data := List.replicate 31 0, src := 0 }).wf = false
    ∧ (Instr.asyncArrival 0 { addr := 0, len := 32, write := false, data := [1], src := 0 }).wf = false
    ∧ (Instr.asyncArrival 0 { addr := 0, len := 0, write := false, data := [], src := 0 }).wf = false
    ∧ (Instr.columnPortAsyncRequest 0 .read { transfer with requester := 7 }).wf = false
    ∧ (Instr.columnPortAsyncRequest 0 .read { transfer with beats := 0 }).wf = false
    ∧ (Instr.columnPortAsyncRequest 0 .read { transfer with ta := 0x3000000 }).wf = false := by
  decide

/-- Nine flits in a block; flits of no channel; lane 12. -/
theorem test_wf_links :
    let b : UzlBlock := { bseq := 0, ack := 0, ackv := false, nak := false, idle := false, xoff := 0, good := true, corrected := 0,
                          flits := [(0, 8)], heads := 1, bodies := 7 }
    (Instr.uzlBlockReceive 0 b).wf = true ∧ (Instr.uzlBlockReceive 0 { b with flits := [(0, 9)], bodies := 8 }).wf = false
      ∧ (Instr.uzlBlockReceive 0 { b with flits := [] }).wf = false ∧ (Instr.uzlBlockReceive 0 { b with lane := 12 }).wf = false
      ∧ (Instr.laneLockLoss 0 11).wf = true ∧ (Instr.laneLockLoss 0 12).wf = false ∧ (Instr.laneWindowEnd 0 12 0 0).wf = false := by
  decide

/-- A tag of 48 bytes; a body that is not the message's; a short header, bundle and digest; three mask words; a layout digest of 16 bytes. -/
theorem test_wf_requests :
    (Instr.progStart kdmp0).wf = true ∧ (Instr.progStart { kdmp0 with tag := List.replicate 48 0 }).wf = false
    ∧ (Instr.wsLoad { kdmp0 with msg := List.replicate 64 0 } (List.replicate 32 0)).wf = true
    ∧ (Instr.wsLoad { kdmp0 with msg := List.replicate 64 0 } (1 :: List.replicate 31 0)).wf = false
    ∧ (Instr.wsManifestFetched (some { header := [], manifest := [] })).wf = false
    ∧ image0.wf = true ∧ { image0 with bundles := [(0, [])] }.wf = false
    ∧ sections0.wf = true ∧ { sections0 with images := [{ image0 with bundles := [(0, [])] }] }.wf = false
    ∧ { sections0 with tollgates := [(0, 0, [0, 0, 0], [0, 0, 0, 0])] }.wf = false
    ∧ { sections0 with sets := [(0, true, List.replicate 16 0)] }.wf = false
    ∧ (Instr.progLoad kdmp0 { fetched := none, fingerprint := 0, sections := [], digests := [[1]] }).wf = false := by
  decide

/-- An empty prompt; a short request record; a frame of no kind; a short notice. -/
theorem test_wf_host :
    (Instr.promptReadComplete 0 (some [])).wf = false ∧ (Instr.promptReadComplete 0 none).wf = true
    ∧ (Instr.requestRecordArrival 0 false 0 [1]).wf = false
    ∧ (Instr.ethFrameReceive { badFcs := false, addrOk := true, fragment := false, vid := none, kind := 4, udpPort := 0, len := 64 }).wf = false
    ∧ (Instr.noticeOpen { slot := 0, wgen := 0, blocks := 0, slotGen := 0, sec := 0, request := [], entries := [] }).wf = false := by
  decide

/-- Short headers, nonces and certificates; code beyond 8,192 bytes; key 4; a coordinate of 385 bits. -/
theorem test_wf_boot :
    (Instr.fwBegin 0 []).wf = false ∧ (Instr.fwData 0 0 []).wf = true ∧ (Instr.attest []).wf = false ∧ (Instr.debugUnlock []).wf = false
    ∧ (Instr.sessionOpen 3 { x := 0, y := 0 }).wf = true ∧ (Instr.sessionOpen 4 { x := 0, y := 0 }).wf = false
    ∧ (Instr.sessionOpen 0 { x := 2 ^ 384, y := 0 }).wf = false ∧ (Instr.sessionProof 1 { x := 0, y := 0 } { r := 0, s := 2 ^ 384 }).wf = false := by
  decide +kernel

/-- Code of 8,193 bytes. -/
theorem test_wf_lengths : (Instr.fwData 0 0 (List.replicate 8193 0)).wf = false := by
  simp only [Instr.wf, List.length_replicate]; decide

/-- A configuration read of a length no record has. -/
theorem test_wf_config : (Instr.configReadComplete (List.replicate 1048833 0)).wf = false := by
  simp only [Instr.wf, List.length_replicate]; decide

/-! ### Examples of the manual -/

/-- Chapter 2, "A reordered sum": three E4M3 products at anchor −18 in both orders. -/
theorem test_reordered_sum :
    let p (a b : Nat) : BitVec 128 := (contribOf (-18) ((e4m3.decode a).mul (e4m3.decode b))).c
    let p1 := p 0x78 0x78
    let p2 := p 0xF8 0x78
    let p3 := p 0x01 0x01
    p1 = 0x400000000 ∧ p3 = 1 ∧ wideAdd (wideAdd p1 p3) p2 = 1 ∧ wideAdd (wideAdd p1 p2) p3 = 1
      ∧ (wideConvert (.float fp32) {} (-18) 1).code = 0x36800000 := by
  decide +kernel

/-- Chapter 2, "An anchor set too high for MXFP4": the floor of −2^−21 at A = −16, and the saturation at A = −80. -/
theorem test_anchor_too_high :
    (contribOf (-16) (.fin true 1 (-21))).c.extractLsb' 0 112 = -1 ∧ (contribOf (-16) (.fin false 1 (-21))).c = 0
    ∧ wHigh (contribOf (-80) (.fin false 1152 0)).c = true ∧ wInt (contribOf (-80) (.fin false 1152 0)).c = 2 ^ 87 - 1 := by
  decide +kernel

/-- Chapter 2, "DRAIN to BF16": nearest even, and stochastic rounding with two values of r. -/
theorem test_drain_bf16 :
    let code (rd : Rounding) : Nat := (wideConvert (.float bf16) rd (-18) 0x2D5A3).code
    code {} = 0x3F35 ∧ code { mode := 4, r := 0xA1B2 } = 0x3F36 ∧ code { mode := 4, r := 0x1234 } = 0x3F35
      ∧ code { mode := 4, r := 0x9740 } = 0x3F36 ∧ code { mode := 4, r := 0x973F } = 0x3F35 := by
  decide +kernel

/-- Chapter 6: address 0x0033_2100 lies in bank 13. -/
theorem test_bank : cmBank 0x332100 = 13 ∧ cmBank 0x700000 = 28 ∧ cmBank 0x7FFFFF = 31 := by decide

/-- Chapter 14, "A reserve that holds class 1 back": the response record of the deferred record A begins with this word. -/
theorem test_response_record :
    let s := (State.reset.modSec 0 fun x => { x with vseqA := 0xC1 })
    wordOf (((statusRecord s 0 2 0 3 [] 0).sec 0).statusRecs.headD { vseq := 0, journal := 0, data := [] }).data = 0x00000003000200C1 := by
  decide +kernel

/-- Chapter 9, "A message that meets the ring end": WPTR 3,584 of a 4 KiB ring with credit 768: the PAD of 512 bytes leaves 256, which does
not let the message of 700 bytes go; with 1,280 it goes and leaves 512. -/
theorem test_ring_end :
    let x : SendEp := { st := .opened, credit := 768, maxlen := 1024, ring := 4096, wcopy := 3584 }
    let y := (State.reset.sendPad ((Home.core 9).peer 0 0) x 700).1
    y.credit = 256 ∧ y.wcopy = 0 ∧ y.mayIssue 700 = false ∧ { y with credit := 1280 }.mayIssue 700 = true := by
  decide +kernel

/-- Chapter 17: at the 1.0 GHz step a c-cycle is 2 ns, at the 625 MHz step 3.2 ns (R467). -/
theorem test_time_advances :
    (({ State.reset.ck with inc := 0x200000000 } : Ck).tick.ns = 2 ∧ ({ State.reset.ck with inc := 0x200000000 } : Ck).tick.frac = 0)
    ∧ (({ State.reset.ck with inc := 0x333333333 } : Ck).tick.ns = 3 ∧ ({ State.reset.ck with inc := 0x333333333 } : Ck).tick.frac = 0x33333333) := by
  decide +kernel

/-- A word spells no command: the table gives its rows no bits. -/
theorem test_decode_none : decodeTableWord 64 0 = none ∧ State.reset.withFetchWord 64 0 = State.reset := ⟨rfl, rfl⟩

/-- Chapter 5: ADD of two registers that hold 5 and 7 writes 12, SUB −2, and MUL is available three a-cycles on. -/
theorem test_scalar :
    let s := running.modSq 0 fun q => { q with s := (q.s.set 1 5).set 2 7 }
    let i := word 0 (put [(49, 3), (42, 1), (35, 2)])
    let r (o : Host.Outcome State Machine.Fault Machine.Refusal) : Word := match o with
      | .next t => readU t 0 3
      | _ => 0
    r (exec (.add i) s) = 12 ∧ r (exec (.sub i) s) = -2 ∧ r (exec (.mul i) s) = 35 ∧ r (exec (.sltu i) s) = 1 := by
  decide +kernel

/-- A VADD.I32 with a scalar operand: each of three lanes takes s[1], three a-cycles on. -/
theorem test_vector_scalar :
    let s := running.modSq 0 fun q => { q with s := q.s.set 1 5 }
    (match exec (.vaddI32 (word 4 (put [(42, 2), (24, 1), (2, 1), (1, 1)]))) s with
      | .next t => Mem.read ((t.pass 0 3).core 0).ve.vob 32 16
      | _ => []) = [5, 0, 0, 0, 5, 0, 0, 0, 5, 0, 0, 0, 0, 0, 0, 0] := by
  decide +kernel

/-- An STN of S1 completes before an LDN of S0 reads the same granule (R131, R157). -/
theorem test_stn_before_ldn :
    let ws : List SlotWord := [{ slot := 0, opcode := 0x1C, bits := put [(49, 2)] }, { slot := 1, opcode := 0x1D, bits := put [(49, 1)] }]
    readU ((present busy 0 ws).pass 0 6) 0 2 = 1 ∧ readU ((present busy 0 ws.reverse).pass 0 6) 0 2 = 1 := by decide +kernel

/-- Chapter 6, "A DMA write meeting an engine read": row 7 of the LDS.CM is held in a-cycle 40, served in 41, and the path is free an
a-cycle later. -/
theorem test_dma_write_meets_engine_read :
    let s := running.modCore 0 fun k =>
      let k := { k with sq := { k.sq with clk := 39, cycle := 39 }, me := { k.me with cmFree := 40 } }
      (k.post [{ code := 4, seq := 14, rows := [0x3321], at_ := 40, stamps := [.cmPath 40] }]).post
        [{ code := 9, seq := 1, write := true, rows := [0x3321], at_ := 40 }]
    let k := (s.pass 0 3).core 0
    let f := k.cm.collideFirst
    fld k.cm.collide 63 48 = 1 ∧ fld k.cm.collide 47 0 = 0 ∧ k.sq.devTotal = 1 ∧ fld k.sq.devFirst 62 56 = 0x12
      ∧ fld f 62 61 = 0 ∧ fld f 60 56 = 13 ∧ fld f 55 46 = 200 ∧ fld f 45 42 = 9 ∧ fld f 41 38 = 4 ∧ fld f 31 0 = 40
      ∧ k.me.cmFree = 41 ∧ k.cm.asks = [] := by decide +kernel

/-- Two LDNs of one bundle ask for one bank (R155, R157): that of S1 is held once, and its register is available an a-cycle later. -/
theorem test_two_loads_one_bank :
    let ws : List SlotWord := [{ slot := 0, opcode := 0x1C, bits := put [(49, 2)] }, { slot := 1, opcode := 0x1C, bits := put [(49, 3)] }]
    let k := ((present busy 0 ws).pass 0 2).core 0
    fld k.cm.collide 47 32 + fld k.cm.collide 63 48 = 1 ∧ k.sq.devTotal = 1 ∧ fld k.cm.collideFirst 45 38 = 0x12
      ∧ (k.sq.avail.find? (·.1 == 3)).map (·.2) = (k.sq.avail.find? (·.1 == 2)).map (·.2 + 1) := by decide +kernel

/-- The four IDCODE values of R459. -/
theorem test_idcode : ([Part.dx256a1, .dx256b0, .dx224a1, .dx224b0].map Part.idcode) = [0x1D25668F, 0x2D25668F, 0x1D22468F, 0x2D22468F] := by
  decide

/-- With JTAG locked, a boundary-scan instruction acts as BYPASS (R424). -/
theorem test_tap_locked (s : State) (h : s.jtagOpen = false) (hs : s.ms.tap = .scan) : s.tapActs = .bypass := by
  simp [State.tapActs, h, hs]

end Sys2Proof.Tests
end

section
/-! The actions of SQ_CTRL (R147): what each answers in each state of the sequencer. -/

namespace Sys2Proof.Machine

/-- A write to a window of a core that is there, on a package that works: its effect, then its completion (R14). -/
theorem State.coreOp_of_present {s : State} {c : CoreId} (hs : s.cu.failstop = false) (hf : s.fusedOff c = false)
    (block off : Nat) (f : State → Status × State) :
    s.coreOp c block off f = (f s).2.emit (.mgmt (coreAddr c block off) true (f s).1 0) := by
  simp [State.coreOp, State.mgmtOp, hs, hf]

section
variable {s : State} {c : CoreId}

theorem sqStart_of_startable (h : (s.core c).sq.st = .ready ∨ (s.core c).sq.st = .done) :
    sqStart c s = (.ok, (s.syncClk c).modSq c fun q => { q with
      st := .run, pc := q.startPc, cycle := 0, holds := 0, bundle := [], waiting := false }) := by
  unfold sqStart
  rcases h with h | h <;> rw [h]

theorem sqStart_of_not_startable (hr : (s.core c).sq.st ≠ .ready) (hd : (s.core c).sq.st ≠ .done) :
    sqStart c s = (.refused .state, s) := by
  unfold sqStart
  split
  case h_1 h => exact absurd h hr
  case h_2 h => exact absurd h hd
  case h_3 => rfl

theorem sqStop_of_run (h : (s.core c).sq.st = .run) : sqStop c s = (.ok, s.modSq c Sq.stop) := by
  unfold sqStop
  rw [h]

theorem sqStop_of_not_run (h : (s.core c).sq.st ≠ .run) : sqStop c s = (.refused .state, s) := by
  unfold sqStop
  split
  case h_1 hr => exact absurd hr h
  case h_2 => rfl

theorem sqResume_of_stopped (h : (s.core c).sq.st = .stopped) (hq : (s.core c).quiet = true) :
    sqResume c s = (.ok, (s.syncClk c).modSq c fun q => { q with st := .run }) :=
  if_pos ⟨h, hq⟩

theorem sqResume_of_not_stopped (h : ¬((s.core c).sq.st = .stopped ∧ (s.core c).quiet = true)) :
    sqResume c s = (.refused .state, s) :=
  if_neg h

theorem sqReset_of_not_resetting (h : (s.core c).sq.st ≠ .resetting) :
    sqReset c s = (.ok, { s.modSq c (fun q => { q with
      st := .resetting, holds := 0, release := none, waitDma := none, bundle := [], waiting := false }) with
      cu := { s.cu with fences := s.cu.fences ++ [.core c] } }) :=
  if_neg h

theorem sqReset_of_resetting (h : (s.core c).sq.st = .resetting) : sqReset c s = (.refused .state, s) :=
  if_pos h

end

/-- Settles O12: each action is `State.coreOp_of_present` of its effect in the state of the sequencer. -/
theorem sequencerControl : Obligations.SequencerControl := by
  intro c s hs hf
  have start : exec (.sqCtrlStart c) s = .next ((sqStart c s).2.emit (.mgmt (coreAddr c 0 8) true (sqStart c s).1 0)) :=
    congrArg _ (State.coreOp_of_present hs hf 0 8 (sqStart c))
  have stop : exec (.sqCtrlStop c) s = .next ((sqStop c s).2.emit (.mgmt (coreAddr c 0 8) true (sqStop c s).1 0)) :=
    congrArg _ (State.coreOp_of_present hs hf 0 8 (sqStop c))
  have resume : exec (.sqCtrlResume c) s = .next ((sqResume c s).2.emit (.mgmt (coreAddr c 0 8) true (sqResume c s).1 0)) :=
    congrArg _ (State.coreOp_of_present hs hf 0 8 (sqResume c))
  have reset : exec (.sqCtrlReset c) s = .next ((sqReset c s).2.emit (.mgmt (coreAddr c 0 8) true (sqReset c s).1 0)) :=
    congrArg _ (State.coreOp_of_present hs hf 0 8 (sqReset c))
  rw [start, stop, resume, reset]
  refine ⟨fun h => ?_, fun hr hd => ?_, fun h => ?_, fun h => ?_, fun h hq => ?_, fun h => ?_, fun h => ?_, fun h => ?_⟩
  · rw [sqStart_of_startable h]
  · rw [sqStart_of_not_startable hr hd]
  · rw [sqStop_of_run h]; rfl
  · rw [sqStop_of_not_run h]
  · rw [sqResume_of_stopped h hq]
  · rw [sqResume_of_not_stopped h]
  · rw [sqReset_of_not_resetting h]
  · rw [sqReset_of_resetting h]

end Sys2Proof.Machine
end

section
/-! The registers of a program as the sequencer holds them (R123). -/

namespace Sys2Proof.Machine

/-- Unified register n of a program, below 68, as the sequencer holds it. -/
def Sq.reg (q : Sq) (n : Nat) : Word :=
  if n < 32 then vget q.s n
  else if n < 48 then vget q.a (n - 32)
  else if n < 56 then (vget q.rm (n - 48)).setWidth 64
  else if n < 64 then vget q.cm (n - 56)
  else (vget q.lp (n - 64)).setWidth 64

theorem readU_eq_reg (s : State) (c : CoreId) {n : Nat} (h : n < 68) : readU s c n = (s.core c).sq.reg n := by
  unfold readU Sq.reg
  simp only [h, if_true]

theorem Sq.reg_await (q : Sq) (n lat m : Nat) : (q.await n lat).reg m = q.reg m := rfl

theorem vget_vset_ne {α : Type} [Inhabited α] {n : Nat} (v : Vector α n) (x : α) {i j : Nat} (h : i ≠ j) :
    vget (vset v i x) j = vget v j := by
  rw [vget_vset, if_neg fun e => h e.1]

/-- A register keeps its value when another one is written. -/
theorem Sq.reg_writeU_ne (q : Sq) (v : Word) {m n : Nat} (h : m ≠ n) : (q.writeU n v).reg m = q.reg m := by
  unfold Sq.writeU
  split_ifs with hs ha hr hc hl
  · exact ite_congr rfl (fun _ => vget_vset_ne _ _ h.symm) fun _ => rfl
  · exact ite_congr rfl (fun _ => rfl) fun _ => ite_congr rfl (fun _ => vget_vset_ne _ _ (by omega)) fun _ => rfl
  · exact ite_congr rfl (fun _ => rfl) fun _ => ite_congr rfl (fun _ => rfl) fun _ =>
      ite_congr rfl (fun _ => congrArg _ (vget_vset_ne _ _ (by omega))) fun _ => rfl
  · exact ite_congr rfl (fun _ => rfl) fun _ => ite_congr rfl (fun _ => rfl) fun _ => ite_congr rfl (fun _ => rfl) fun _ =>
      ite_congr rfl (fun _ => vget_vset_ne _ _ (by omega)) fun _ => rfl
  · exact ite_congr rfl (fun _ => rfl) fun _ => ite_congr rfl (fun _ => rfl) fun _ => ite_congr rfl (fun _ => rfl) fun _ =>
      ite_congr rfl (fun _ => rfl) fun _ => congrArg _ (vget_vset_ne _ _ (by omega))
  · rfl

/-- What a unified register holds of a word written to it: a narrower one keeps the low bits (R123). -/
def regCut (n : Nat) (v : Word) : Word :=
  if n < 48 then v
  else if n < 56 then (v.setWidth 8).setWidth 64
  else if n < 64 then v
  else (v.setWidth 32).setWidth 64

theorem vget_vset_same {α : Type} [Inhabited α] {n : Nat} (v : Vector α n) (x : α) {i : Nat} (h : i < n) :
    vget (vset v i x) i = x := by
  rw [vget_vset, if_pos ⟨rfl, h⟩]

/-- A register reads what has been written to it, cut to its width. -/
theorem Sq.reg_writeU_same (q : Sq) (v : Word) {n : Nat} (h : n < 68) : (q.writeU n v).reg n = regCut n v := by
  unfold Sq.writeU Sq.reg regCut
  by_cases hs : n < 32
  · simp only [hs, if_true, vget_vset_same]
    rw [if_pos (by omega)]
  by_cases ha : n < 48
  · simp only [hs, ha, if_false, if_true]
    exact vget_vset_same _ _ (by omega)
  by_cases hr : n < 56
  · simp only [hs, ha, hr, if_false, if_true]
    rw [vget_vset_same _ _ (by omega)]
  by_cases hc : n < 64
  · simp only [hs, ha, hr, hc, if_false, if_true]
    exact vget_vset_same _ _ (by omega)
  · simp only [hs, ha, hr, hc, h, if_false, if_true]
    rw [vget_vset_same _ _ (by omega)]

/-- A register that awaits a word takes it. -/
theorem Sq.takeLate_of_awaited {q : Sq} {n t : Nat} (h : (BitVec.ofNat 7 n, t) ∈ q.avail) (v : Word) :
    q.takeLate n t v = q.writeU n v := if_pos h

/-- A write of a unified register changes registers only. -/
theorem Sq.writeU_keeps (q : Sq) (n : Nat) (v : Word) :
    (q.writeU n v).st = q.st ∧ (q.writeU n v).fault = q.fault ∧ (q.writeU n v).imem = q.imem ∧ (q.writeU n v).startPc = q.startPc
      ∧ (q.writeU n v).pc = q.pc ∧ (q.writeU n v).clk = q.clk := by
  unfold Sq.writeU
  split_ifs <;> exact ⟨rfl, rfl, rfl, rfl, rfl, rfl⟩

theorem readU_writeReg_same (s : State) (c : CoreId) (v : Word) (lat : Nat) {n : Nat} (h : n < 68) :
    readU (s.writeReg c n v lat) c n = regCut n v := by
  rw [readU_eq_reg _ _ h, State.writeReg, State.modSq, State.core_modCore_same, Sq.reg_await, Sq.reg_writeU_same _ _ h]

end Sys2Proof.Machine
end

section
/-! What passes at a core whose only timed events are its accesses: an a-cycle in which none asks moves its counts only, and one in
which a single access asks serves it (R155 to R159). -/

namespace Sys2Proof.Machine

/-! ### What the counts of a-cycles leave alone -/

section
variable (k : CoreSt) (n : Nat)

/-- The descriptors that leave are all that a sweep of the DMA queues changes (R183). -/
theorem CoreSt.sweepDma_eq : k.sweepDma = { k with dma := k.sweepDma.dma } := by
  unfold sweepDma
  split <;> rfl

@[simp] theorem CoreSt.sweepDma_sq : k.sweepDma.sq = k.sq := by rw [sweepDma_eq]
@[simp] theorem CoreSt.sweepDma_me : k.sweepDma.me = k.me := by rw [sweepDma_eq]
@[simp] theorem CoreSt.sweepDma_ve : k.sweepDma.ve = k.ve := by rw [sweepDma_eq]
@[simp] theorem CoreSt.sweepDma_cm : k.sweepDma.cm = k.cm := by rw [sweepDma_eq]
@[simp] theorem CoreSt.sweepDma_cq : k.sweepDma.cq = k.cq := by rw [sweepDma_eq]

theorem DmaQueue.sweep_counts (q : DmaQueue) (asks : List MemAsk) :
    (q.sweep asks).issued = q.issued ∧ (q.sweep asks).done = q.done := by
  unfold DmaQueue.sweep
  dsimp only
  split <;> exact ⟨rfl, rfl⟩

theorem vget_map {α β : Type} [Inhabited α] [Inhabited β] {m : Nat} (v : Vector α m) (f : α → β) (i : Nat) (h : i < m) :
    vget (v.map f) i = f (vget v i) := by
  simp [vget, h]

theorem vget_of_ge {α : Type} [Inhabited α] {m : Nat} (v : Vector α m) {i : Nat} (h : m ≤ i) : vget v i = default := by
  simp [vget, h]

/-- A core keeps what `keepsDma` names when its DMA queues are swept. -/
theorem CoreSt.keepsDma_sweepDma : k.keepsDma k.sweepDma := by
  unfold keepsDma sweepDma
  split
  · refine ⟨rfl, fun q => ?_⟩
    by_cases h : q < 4
    · rw [vget_map _ _ _ h]
      exact DmaQueue.sweep_counts _ _
    · rw [vget_of_ge _ (by omega), vget_of_ge _ (by omega)]
      exact ⟨rfl, rfl⟩
  · exact ⟨rfl, fun _ => ⟨rfl, rfl⟩⟩

theorem CoreSt.keepsUnits_sweepDma : k.keepsUnits k.sweepDma := by
  refine ⟨?_, ?_, ?_, ?_, k.keepsDma_sweepDma, ?_⟩
  · simp [keepsSq]
  · simp [keepsMe]
  · simp [keepsVe]
  · simp [keepsCm]
  · simp [keepsCq]

/-- The marks of W1C bits are all that a-cycles change of a vector engine in which nothing is in flight (R10). -/
theorem CoreSt.keepsVe_bulk : k.keepsVe (k.bulk n) := by
  unfold keepsVe bulk
  dsimp only
  split <;> exact ⟨rfl, rfl, rfl, rfl⟩

theorem CoreSt.keepsUnits_bulk : k.keepsUnits (k.bulk n) :=
  ⟨⟨rfl, rfl, rfl, rfl⟩, ⟨rfl, rfl, rfl, rfl, rfl, rfl, rfl, rfl, rfl, rfl⟩, k.keepsVe_bulk n, ⟨rfl, rfl, rfl, rfl, rfl, rfl, rfl⟩,
    ⟨rfl, fun _ => ⟨rfl, rfl⟩⟩, ⟨rfl, rfl, rfl, rfl, rfl, rfl, rfl⟩⟩

end

/-- `n` a-cycles in which nothing of a core is served: descriptors that have ended leave, and the counts move. -/
def CoreSt.elapse (k : CoreSt) (n : Nat) : CoreSt := k.sweepDma.bulk n

section
variable (k : CoreSt) (n : Nat)

@[simp] theorem CoreSt.bulk_inUse : (k.bulk n).cm.inUse = k.cm.inUse := rfl
@[simp] theorem CoreSt.bulk_avail : (k.bulk n).sq.avail = k.sq.avail := rfl
@[simp] theorem CoreSt.bulk_reg (m : Nat) : (k.bulk n).sq.reg m = k.sq.reg m := rfl

@[simp] theorem CoreSt.elapse_clk : (k.elapse n).sq.clk = k.sq.clk + n := by simp [elapse]
@[simp] theorem CoreSt.elapse_pc : (k.elapse n).sq.pc = k.sq.pc := by simp [elapse]
@[simp] theorem CoreSt.elapse_mem : (k.elapse n).cm.mem = k.cm.mem := by simp [elapse]
@[simp] theorem CoreSt.elapse_asks : (k.elapse n).cm.asks = k.cm.asks := by simp [elapse]
@[simp] theorem CoreSt.elapse_inUse : (k.elapse n).cm.inUse = k.cm.inUse := by simp [elapse]
@[simp] theorem CoreSt.elapse_avail : (k.elapse n).sq.avail = k.sq.avail := by simp [elapse]
@[simp] theorem CoreSt.elapse_reg (m : Nat) : (k.elapse n).sq.reg m = k.sq.reg m := by simp [elapse]

end

theorem CoreSt.keepsUnits.trans {i j k : CoreSt} (h : i.keepsUnits j) (g : j.keepsUnits k) : i.keepsUnits k := by
  unfold keepsUnits keepsSq keepsMe keepsVe keepsCm keepsDma keepsCq at *
  grind

/-- An update of the sequencer keeps what the sequencer keeps, and the other units. -/
theorem CoreSt.keepsUnits_withSq (k : CoreSt) {q : Sq} (h : k.keepsSq { k with sq := q }) : k.keepsUnits { k with sq := q } :=
  ⟨h, ⟨rfl, rfl, rfl, rfl, rfl, rfl, rfl, rfl, rfl, rfl⟩, ⟨rfl, rfl, rfl, rfl⟩, ⟨rfl, rfl, rfl, rfl, rfl, rfl, rfl⟩,
    ⟨rfl, fun _ => ⟨rfl, rfl⟩⟩, ⟨rfl, rfl, rfl, rfl, rfl, rfl, rfl⟩⟩

/-- An update of core memory and of what asks for it keeps what core memory keeps, and the other units. -/
theorem CoreSt.keepsUnits_withCm (k : CoreSt) {m : Cm} (h : k.keepsCm { k with cm := m }) : k.keepsUnits { k with cm := m } :=
  ⟨⟨rfl, rfl, rfl, rfl⟩, ⟨rfl, rfl, rfl, rfl, rfl, rfl, rfl, rfl, rfl, rfl⟩, ⟨rfl, rfl, rfl, rfl⟩, h, ⟨rfl, fun _ => ⟨rfl, rfl⟩⟩,
    ⟨rfl, rfl, rfl, rfl, rfl, rfl, rfl⟩⟩

theorem CoreSt.keepsUnits_elapse (k : CoreSt) (n : Nat) : k.keepsUnits (k.elapse n) :=
  k.keepsUnits_sweepDma.trans (k.sweepDma.keepsUnits_bulk n)

/-! ### Cores whose only timed events are accesses -/

/-- An access that asks for the same rows in every a-cycle: all but the one for the head of a ring, which may move (R235). -/
def MemAsk.steady (a : MemAsk) : Prop := ∀ ep bits dst b pad, a.move ≠ .ringHead ep bits dst b pad

/-- Nothing of a core is timed but its counts and its steady accesses, and no replay freezes it. -/
structure CoreSt.OnlyAsks (k : CoreSt) : Prop where
  flights : k.ve.flights = []
  swap : k.me.swapDue = false
  stream : k.me.stream = none
  list : k.me.list = none
  guardAt : k.cm.guardAt = none
  input : (k.cq.queues.toList.all fun q => q.input.isEmpty) = true
  frozen : k.frozen = false
  steady : ∀ a ∈ k.cm.asks, a.steady

namespace CoreSt.OnlyAsks
variable {j k : CoreSt}

theorem of_still (h : k.still = true) (hf : k.frozen = false) : k.OnlyAsks := by
  simp only [still, Bool.and_eq_true, List.isEmpty_iff, Option.isNone_iff_eq_none, Bool.not_eq_true'] at h
  obtain ⟨⟨⟨⟨⟨⟨ha, hv⟩, hs⟩, hm⟩, hl⟩, hg⟩, hq⟩ := h
  exact ⟨hv, hs, hm, hl, hg, hq, hf, by simp [ha]⟩

/-- Such a core is still when it has no access to be served. -/
theorem still_eq (h : k.OnlyAsks) : k.still = k.cm.asks.isEmpty := by
  simp [still, h.flights, h.swap, h.stream, h.list, h.guardAt, h.input]

/-- Updates of the sequencer, of memory, of what asks and of what is in use keep such a core so. -/
theorem of_units (h : j.OnlyAsks) (hve : k.ve.flights = j.ve.flights) (hme : k.me = j.me) (hcq : k.cq.queues = j.cq.queues)
    (hg : k.cm.guardAt = j.cm.guardAt)
    (ha : ∀ a ∈ k.cm.asks, a.steady) : k.OnlyAsks :=
  ⟨hve ▸ h.flights, hme ▸ h.swap, hme ▸ h.stream, hme ▸ h.list, hg ▸ h.guardAt, hcq ▸ h.input,
    (congrArg (fun me : Me => me.tiles.toList.any fun t => t.st == .replay) hme).trans h.frozen, ha⟩

theorem sweepDma (h : k.OnlyAsks) : k.sweepDma.OnlyAsks :=
  h.of_units (by simp) (by simp) (by simp) (by simp) (by simpa using h.steady)

end CoreSt.OnlyAsks

/-- No tile starts or ends its replay by the passing of time (R76). -/
theorem CoreSt.frozen_bulk (k : CoreSt) (n : Nat) : (k.bulk n).frozen = k.frozen := by
  have ht (clk : Nat) (t : Tile) : ((t.settle clk).st == .replay) = (t.st == .replay) := by
    unfold Tile.settle
    split
    · next h => rw [h.1]; rfl
    · rfl
  simp [frozen, bulk, Vector.toList_map, List.any_map, Function.comp_def, ht]

theorem CoreSt.OnlyAsks.bulk {k : CoreSt} (h : k.OnlyAsks) (n : Nat) : (k.bulk n).OnlyAsks :=
  ⟨(k.bulk_flights n).trans h.flights, h.swap, h.stream, h.list, h.guardAt, h.input, (k.frozen_bulk n).trans h.frozen, h.steady⟩

theorem CoreSt.OnlyAsks.elapse {k : CoreSt} (h : k.OnlyAsks) (n : Nat) : (k.elapse n).OnlyAsks := h.sweepDma.bulk n

/-- A package that works, and a core of it whose only timed events are its accesses; no asynchronous request is at the core's
column. -/
structure State.OnlyAsks (s : State) (c : CoreId) : Prop where
  works : s.works
  ports : s.portsIdle c = true
  core : (s.core c).OnlyAsks

theorem State.OnlyAsks.setCore {s : State} {c : CoreId} (h : s.OnlyAsks c) {k : CoreSt} (hk : k.OnlyAsks) :
    (s.setCore c k).OnlyAsks c :=
  ⟨h.works, h.ports, by rwa [State.core_setCore_same]⟩

theorem State.modCore_of_fixed {s : State} {c : CoreId} {f : CoreSt → CoreSt} (h : f (s.core c) = s.core c) : s.modCore c f = s := by
  rw [State.modCore_eq, h, State.setCore_core]

/-! ### An a-cycle at such a core, part by part -/

section
variable {s : State} {c : CoreId}

theorem portSideTick_of_idle {col : Nat} {sd : Side} (h : (s.port col sd).queue.isEmpty = true) : portSideTick s col sd = s :=
  if_pos h

theorem portTick_of_idle (h : s.portsIdle c = true) : portTick s c.toNat = s := by
  simp only [State.portsIdle, Bool.and_eq_true] at h
  unfold portTick
  rw [portSideTick_of_idle h.1, portSideTick_of_idle h.2]

/-- A side without requests makes no beat, guarded or not. -/
theorem PortSide.not_beating {p : PortSide} (h : p.queue.isEmpty = true) (clk : Nat) : p.beating clk = false := by
  simp [beating, owned, List.isEmpty_iff.1 h]

theorem State.guardPorts_of_idle (h : s.portsIdle c = true) : s.guardPorts c = s := by
  simp only [State.portsIdle, Bool.and_eq_true] at h
  simp [guardPorts, PortSide.not_beating h.1, PortSide.not_beating h.2]

theorem CoreSt.aimRings_of_steady {k : CoreSt} (h : ∀ a ∈ k.cm.asks, a.steady) :
    k.aimRings = k := by
  unfold aimRings
  dsimp only
  rw [List.map_congr_left (g := id), List.map_id]
  intro a ha
  split
  · next e => exact absurd e (h a ha _ _ _ _ _)
  · rfl

theorem CoreSt.OnlyAsks.prepare {k : CoreSt} (h : k.OnlyAsks) : k.prepare = k := by
  unfold CoreSt.prepare
  rw [h.frozen, if_neg Bool.false_ne_true]
  have : k.queueTick = k := if_pos h.input
  rw [this, CoreSt.aimRings_of_steady h.steady]

theorem CoreSt.OnlyAsks.guardTakes {k : CoreSt} (h : k.OnlyAsks) : k.guardTakes = k := by
  unfold CoreSt.guardTakes
  rw [h.guardAt]

theorem State.OnlyAsks.engines (h : s.OnlyAsks c) : s.engines c = s := by
  have hv : s.vectorTick c = s := by simp [vectorTick, h.core.flights]
  have hs : s.streamTick c = s := by unfold streamTick; simp only [h.core.stream]
  have hl : (s.core c).listTick = s.core c := by unfold CoreSt.listTick; rw [h.core.list]
  unfold State.engines
  dsimp only
  rw [hv, h.core.frozen, if_neg Bool.false_ne_true, hs, State.modCore_of_fixed hl]

theorem Me.begins_none {me : Me} (h : me.stream = none) (clk : Nat) : me.begins clk = none := by
  rw [begins, h]; rfl

theorem State.OnlyAsks.turn (h : s.OnlyAsks c) : s.turn c = s := by
  have hb := Me.begins_none h.core.stream (s.core c).sq.clk
  have ht : (s.core c).me.turn (s.core c).sq.clk = (s.core c).me := by
    unfold Me.turn Me.beginNext
    rw [h.core.swap, if_neg Bool.false_ne_true, hb]
  unfold State.turn
  dsimp only
  rw [h.core.swap, if_neg Bool.false_ne_true, hb]
  show s.modMe c (·.turn (s.core c).sq.clk) = s
  exact State.modCore_of_fixed (congrArg (fun me => { s.core c with me }) ht)

/-- What the serving of the a-cycle's accesses leaves, the a-cycle ends. -/
theorem State.OnlyAsks.tick {t : State} (h : s.OnlyAsks c) (hserve : s.serve c = t) (ht : t.OnlyAsks c) :
    s.tick c = t.modCore c (·.elapse 1) := by
  unfold State.tick
  dsimp only
  rw [portTick_of_idle h.ports, State.modCore_of_fixed h.core.prepare, State.guardPorts_of_idle h.ports, hserve, ht.engines]
  exact (ht.setCore (ht.core.elapse 1)).turn

/-! ### Accesses of such a core -/

theorem State.OnlyAsks.serve_of_none_due (h : s.OnlyAsks c) (hd : (s.core c).due = []) : s.serve c = s := by
  have ha : (s.core c).arbitrate = (s.core c, [], []) := by
    unfold CoreSt.arbitrate
    dsimp only
    rw [h.core.guardTakes, hd]
    rfl
  unfold State.serve
  rw [ha]
  simp [State.performAll]

/-- An a-cycle in which no access asks moves the counts of the core, and nothing else. -/
theorem State.OnlyAsks.tick_of_none_due (h : s.OnlyAsks c) (hd : (s.core c).due = []) :
    s.tick c = s.modCore c (·.elapse 1) :=
  h.tick (h.serve_of_none_due hd) h

theorem flatMap_range_of_eq {α : Type} (x : α) {m n : Nat} (h : m < n) :
    (List.range n).flatMap (fun c => if m == c then [x] else []) = [x] := by
  have none_from (k : Nat) (hk : k ≤ m) : (List.range k).flatMap (fun c => if m == c then [x] else []) = [] := by
    rw [List.flatMap_eq_nil_iff]
    intro c hc
    rw [List.mem_range] at hc
    exact if_neg (by simp; omega)
  induction n with
  | zero => omega
  | succ n ih =>
    rw [List.range_succ, List.flatMap_append, List.flatMap_singleton]
    by_cases e : m = n
    · rw [none_from n (by omega)]; simp [e]
    · rw [ih (by omega)]; simp [e]

/-- The same holds of one a-cycle that passes, whether an access waits or not. -/
theorem State.OnlyAsks.pass_one (h : s.OnlyAsks c) (hd : (s.core c).due = []) : s.pass c 1 = s.modCore c (·.elapse 1) := by
  cases hs : s.still c with
  | true => exact pass_of_still h.works.1 h.works.2 hs 0
  | false => rw [pass_succ h.works.1 h.works.2 hs, h.tick_of_none_due hd, pass_zero]

/-- Where an access waits, a-cycles pass one by one. -/
theorem State.OnlyAsks.pass_succ (h : s.OnlyAsks c) (ha : (s.core c).cm.asks ≠ []) (n : Nat) :
    s.pass c (n + 1) = (s.tick c).pass c n := by
  refine State.pass_succ h.works.1 h.works.2 ?_ n
  simp [still, h.core.still_eq, ha]

/-- Where none waits, they pass together. -/
theorem State.OnlyAsks.pass_of_no_asks (h : s.OnlyAsks c) (ha : (s.core c).cm.asks = []) (n : Nat) :
    s.pass c (n + 1) = s.modCore c (·.elapse (n + 1)) := by
  refine pass_of_still h.works.1 h.works.2 ?_ n
  simp [still, h.core.still_eq, ha, h.ports]

/-- One access alone is first in the order of R157. -/
theorem portOrder_singleton {a : MemAsk} (h : a.code < 16) : portOrder [a] = [a] := by
  have hm := flatMap_range_of_eq a h
  have h0 : (List.range 16).flatMap (fun _ => ([] : List MemAsk)) = [] := rfl
  unfold portOrder
  simp only [List.filter_cons, List.filter_nil]
  cases a.write <;> simpa [h0] using hm

/-- An access has been served that nothing kept from its banks, and no access is left (R155). -/
def CoreSt.granted (k : CoreSt) (a : MemAsk) : CoreSt :=
  { k with cm := { k.cm with
    asks := []
    inUse := (k.cm.inUse.filter fun e => decide (k.sq.clk ≤ e.1)) ++ a.uses.map fun u => (k.sq.clk + if a.narrow then 2 else 0, u) } }

/-- The only access of a core asks in the present a-cycle, and no use of a bank keeps it from being served. -/
structure CoreSt.Serves (k : CoreSt) (a : MemAsk) : Prop where
  only : k.cm.asks = [a]
  due : a.at_ ≤ k.sq.clk
  code : a.code < 16
  port : a.port = .bank
  free : a.blocker (k.cm.inUse.filter fun e => decide (k.sq.clk ≤ e.1)) = none

theorem CoreSt.OnlyAsks.arbitrate_one {k : CoreSt} (h : k.OnlyAsks) {a : MemAsk} (ha : k.Serves a) :
    k.arbitrate = (k.granted a, [a], []) := by
  have hd : k.due = [a] := by simp [CoreSt.due, ha.only, ha.due]
  unfold CoreSt.arbitrate
  dsimp only
  rw [h.guardTakes, hd]
  simp only [portOrder_singleton ha.code, List.foldl_cons, List.foldl_nil, PortRound.serve, ha.free, ha.only]
  simp [CoreSt.granted]

/-- The a-cycle in which the only access of a core is served: it moves its data. -/
theorem State.OnlyAsks.tick_of_one_due {t : State} {k : CoreSt} (h : s.OnlyAsks c) (hk : s.core c = k) {a : MemAsk}
    (ha : k.Serves a) (hm : (s.setCore c (k.granted a)).perform c s.tier [] a = t) (ht : t.OnlyAsks c) :
    s.tick c = t.modCore c (·.elapse 1) := by
  subst hk
  refine h.tick ?_ ht
  have hs : a.side = none := by rw [MemAsk.side, ha.port]
  unfold State.serve
  rw [h.core.arbitrate_one ha]
  simp only [List.foldl_cons, List.foldl_nil, countPort, hs, State.performAll]
  exact hm

end

end Sys2Proof.Machine
end

section
/-! A bundle of one scalar word on a calm core: what its issue leaves, and what the a-cycles after it serve of an LDN or STN. -/

namespace Sys2Proof.Machine

/-! ### What a word that issues alone has passed -/

section
variable {op : BitVec 8} {i : Issue} {s : State}

/-- A scalar word that issues alone has no fault of its unit (R129, R131). -/
theorem IssuesAlone.scalarFault_none (h : IssuesAlone op i s) (ha : 1 ≤ op.toNat) (hb : op.toNat ≤ 0x1F) :
    scalarFault (s.core i.core) op.toNat i.bits = none := by
  have hf := h.sound
  have hact := h.active (by omega)
  have hop : (i.word op).opcode.toNat ≠ 0 := fun e => absurd (show op.toNat = 0 from e) (by omega)
  unfold slotFault at hf
  rw [if_neg hop, hact] at hf
  rcases scalar_slot h ha hb with e | e <;> simpa [Issue.word, e] using hf

/-- The bundle after a bundle without a branch is one of the program (R128, R133). -/
theorem IssuesAlone.next_lt (h : IssuesAlone op i s) (h2 : i.slot ≠ 2) : (s.core i.core).sq.pc.toNat + 1 < 8192 := by
  have hf := h.2.2.2.1
  unfold bundleFaults at hf
  rw [List.filterMap_eq_nil_iff] at hf
  have nop := hf 2 (by simp)
  have hs : (i.slot.toNat == 2) = false := by
    rw [beq_eq_false_iff_ne]
    exact fun e => h2 (BitVec.eq_of_toNat_eq e)
  have next : pcFault { pc := (s.core i.core).sq.pc.toNat + 1 } = none := by
    rw [branchWord_of_slot h2] at nop
    simpa [Issue.word, hs, slotFault, dualWrite, SlotWord.dest, SlotWord.active, branchNext] using nop
  by_contra hn
  rw [pcFault, if_pos (by simp only; omega)] at next
  cases next

end

/-- The destination of a scalar word without a fault is a register that can be written (R123, R129). -/
theorem scalarDest_lt {k : CoreSt} {op : Nat} {b : BitVec 56} (h : scalarFault k op b = none) {l : ScalarLayout}
    (hl : scalarLayout op = some l) (hw : op ≠ 0x1D) : fld b 55 49 < 68 := by
  unfold scalarFault at h
  rw [hl] at h
  by_contra hn
  have hr : regWritable (fld b 55 49) = false := by simp [regWritable]; omega
  cases l with
  | sr => simp only [hr, Bool.not_false, Bool.true_or, if_true] at h; split at h <;> cases h
  | si => simp only [hr, Bool.not_false, Bool.true_or, if_true] at h; split at h <;> cases h
  | sm =>
    have hop : op = 0x1C := by
      unfold scalarLayout at hl
      split_ifs at hl with h1 h2 h3
      · cases hl
      · cases hl
      · exact h3.resolve_right hw
    simp only [hr, hop, Bool.not_false, and_self, true_or, if_true] at h
    split at h <;> cases h

/-! ### The issue of a scalar word at a core at which no access waits -/

/-- A core whose bundle has left the sequencer and updated its registers by `f`. -/
def CoreSt.updated (k : CoreSt) (f : Sq → Sq) : CoreSt := { k.dispatched with sq := f k.dispatched.sq }

/-- A core after the a-cycle in which it issued such a bundle, whose accesses are to be served. -/
def CoreSt.issuedBy (k : CoreSt) (f : Sq → Sq) (asks : List MemAsk) (n : NextPc) : CoreSt :=
  (((k.updated f).post asks).elapse 1).advanceTo n

/-- An update of registers and of what awaits them: control, program and count of the sequencer stay. -/
def Sq.onlyRegs (f : Sq → Sq) : Prop :=
  ∀ q, (f q).st = q.st ∧ (f q).fault = q.fault ∧ (f q).imem = q.imem ∧ (f q).startPc = q.startPc ∧ (f q).clk = q.clk

theorem Sq.onlyRegs_id : Sq.onlyRegs id := fun _ => ⟨rfl, rfl, rfl, rfl, rfl⟩

theorem Sq.onlyRegs_await (n lat : Nat) : Sq.onlyRegs (·.await n lat) := fun _ => ⟨rfl, rfl, rfl, rfl, rfl⟩

theorem Sq.onlyRegs_writeU (n lat : Nat) (v : Word) : Sq.onlyRegs fun q => (q.writeU n v).await n lat := fun q => by
  obtain ⟨hst, hfault, himem, hstart, -, hclk⟩ := q.writeU_keeps n v
  exact ⟨hst, hfault, himem, hstart, hclk⟩

/-- The accesses as a core at which none waits has them. -/
theorem CoreSt.post_asks {k : CoreSt} (hk : k.cm.asks = []) (asks : List MemAsk) :
    (k.post asks).cm.asks = asks.map fun a => { a with id := k.cm.nextAsk } := by
  cases asks with
  | nil => exact hk
  | cons a as => simp [post, hk]

/-- Accesses that are posted change nothing but what waits. -/
theorem CoreSt.post_eq (k : CoreSt) (asks : List MemAsk) :
    k.post asks = { k with cm := { k.cm with asks := (k.post asks).cm.asks, nextAsk := (k.post asks).cm.nextAsk } } := by
  unfold post
  split <;> rfl

@[simp] theorem CoreSt.post_sq (k : CoreSt) (asks : List MemAsk) : (k.post asks).sq = k.sq := by rw [post_eq]
@[simp] theorem CoreSt.post_inUse (k : CoreSt) (asks : List MemAsk) : (k.post asks).cm.inUse = k.cm.inUse := by rw [post_eq]
@[simp] theorem CoreSt.post_mem (k : CoreSt) (asks : List MemAsk) : (k.post asks).cm.mem = k.cm.mem := by rw [post_eq]

theorem CoreSt.keepsUnits_post (k : CoreSt) (asks : List MemAsk) : k.keepsUnits (k.post asks) := by
  rw [post_eq]
  exact k.keepsUnits_withCm ⟨rfl, rfl, rfl, rfl, rfl, rfl, rfl⟩

theorem CoreSt.OnlyAsks.post {k : CoreSt} (h : k.OnlyAsks) {asks : List MemAsk}
    (ha : ∀ a ∈ asks, a.steady) : (k.post asks).OnlyAsks := by
  refine h.of_units ?_ ?_ ?_ ?_ ?_
  · rw [CoreSt.post_eq]
  · rw [CoreSt.post_eq]
  · rw [CoreSt.post_eq]
  · rw [CoreSt.post_eq]
  · intro a hm
    unfold CoreSt.post at hm
    split at hm
    · exact h.steady a hm
    · rcases List.mem_append.1 hm with hm | hm
      · exact h.steady a hm
      · obtain ⟨b, hb, rfl⟩ := List.mem_map.1 hm
        exact ha b hb

section
variable {k : CoreSt} {f : Sq → Sq} {asks : List MemAsk} {n : NextPc}

theorem CoreSt.keepsUnits_dispatched (k : CoreSt) : k.keepsUnits k.dispatched :=
  ⟨⟨rfl, rfl, rfl, rfl⟩, ⟨rfl, rfl, rfl, rfl, rfl, rfl, rfl, rfl, rfl, rfl⟩, ⟨rfl, rfl, rfl, rfl⟩,
    ⟨rfl, rfl, rfl, rfl, rfl, rfl, rfl⟩, ⟨rfl, fun _ => ⟨rfl, rfl⟩⟩, ⟨rfl, rfl, rfl, rfl, rfl, rfl, rfl⟩⟩

theorem CoreSt.keepsUnits_updated (hf : Sq.onlyRegs f) : k.keepsUnits (k.updated f) := by
  obtain ⟨hst, hfault, himem, hstart, -⟩ := hf k.dispatched.sq
  exact k.keepsUnits_dispatched.trans (k.dispatched.keepsUnits_withSq ⟨hfault, himem, hstart, hst⟩)

theorem CoreSt.updated_clk (hf : Sq.onlyRegs f) : (k.updated f).sq.clk = k.sq.clk := by
  obtain ⟨-, -, -, -, hclk⟩ := hf k.dispatched.sq
  exact hclk

theorem CoreSt.OnlyAsks.updated (h : k.OnlyAsks) : (k.updated f).OnlyAsks := h.of_units rfl rfl rfl rfl h.steady

theorem CoreSt.keepsUnits_issuedBy (hf : Sq.onlyRegs f) (hn : n.halt = false) : k.keepsUnits (k.issuedBy f asks n) := by
  have advanced (j : CoreSt) : j.keepsUnits (j.advanceTo n) :=
    j.keepsUnits_withSq ⟨rfl, rfl, rfl, if_neg (by simp [hn])⟩
  exact (((keepsUnits_updated hf).trans (keepsUnits_post _ asks)).trans (keepsUnits_elapse _ 1)).trans (advanced _)

@[simp] theorem CoreSt.issuedBy_pc : (k.issuedBy f asks n).sq.pc = BitVec.ofNat 13 n.pc := rfl

@[simp] theorem CoreSt.issuedBy_reg (m : Nat) : (k.issuedBy f asks n).sq.reg m = (f k.dispatched.sq).reg m :=
  (elapse_reg _ 1 m).trans (by rw [post_sq]; rfl)

@[simp] theorem CoreSt.issuedBy_avail : (k.issuedBy f asks n).sq.avail = (f k.dispatched.sq).avail :=
  (elapse_avail _ 1).trans (by rw [post_sq]; rfl)

@[simp] theorem CoreSt.issuedBy_inUse : (k.issuedBy f asks n).cm.inUse = k.cm.inUse :=
  (elapse_inUse _ 1).trans (post_inUse _ asks)

@[simp] theorem CoreSt.issuedBy_mem : (k.issuedBy f asks n).cm.mem = k.cm.mem :=
  (elapse_mem _ 1).trans (post_mem _ asks)

theorem CoreSt.issuedBy_clk (hf : Sq.onlyRegs f) : (k.issuedBy f asks n).sq.clk = k.sq.clk + 1 := by
  refine (elapse_clk _ 1).trans ?_
  rw [post_sq, updated_clk hf]

theorem CoreSt.issuedBy_asks (hk : k.cm.asks = []) :
    (k.issuedBy f asks n).cm.asks = asks.map fun a => { a with id := k.cm.nextAsk } :=
  (elapse_asks _ 1).trans (post_asks (k := k.updated f) hk asks)

theorem CoreSt.OnlyAsks.issuedBy (h : k.OnlyAsks) (ha : ∀ a ∈ asks, a.steady) :
    (k.issuedBy f asks n).OnlyAsks :=
  have passed := (h.updated.post ha).elapse 1
  passed.of_units rfl rfl rfl rfl passed.steady

/-- What a bundle of a core at which no access waits leaves, when it updates registers and its accesses ask later than it issues. -/
theorem State.OnlyAsks.issued_eq {s : State} {c : CoreId} (h : s.OnlyAsks c) (hk : (s.core c).cm.asks = []) (hf : Sq.onlyRegs f)
    (ha : ∀ a ∈ asks, a.steady) (hat : ∀ a ∈ asks, (s.core c).sq.clk < a.at_)
    (hn : n.idle = 0) : s.issued c n (fun t => t.modSq c f) id asks = s.setCore c ((s.core c).issuedBy f asks n) := by
  have posted := h.setCore ((h.core.updated (f := f)).post ha)
  have later : ((s.setCore c (((s.core c).updated f).post asks)).core c).due = [] := by
    rw [State.core_setCore_same, CoreSt.due, CoreSt.post_asks (k := (s.core c).updated f) hk, CoreSt.post_sq, CoreSt.updated_clk hf,
      List.filter_eq_nil_iff]
    intro a hm
    obtain ⟨b, hb, rfl⟩ := List.mem_map.1 hm
    simpa using hat b hb
  have start : ((s.modCore c CoreSt.dispatched).modSq c f).ask c asks = s.setCore c (((s.core c).updated f).post asks) := by
    rw [ask, modSq, modCore_eq s, modCore_setCore, modCore_setCore]
    rfl
  unfold State.issued
  rw [hn, pass_zero, start, posted.pass_one later, modCore_setCore, modCore_setCore]
  rfl

end

end Sys2Proof.Machine
end

section
/-! The accesses of LDN and STN at a core at which no other access waits (R131, R154 to R158). -/

namespace Sys2Proof.Machine

/-! ### What the access of a scalar word moves, where no code has an error -/

section
variable {s : State} {c : CoreId}

theorem cmChecked_of_no_errs (h : s.errs = []) (a len : Nat) (k : State → State) : cmChecked s c a len k = k s :=
  cmChecked_of_none (by simp [errsIn, h]) k

theorem clearErrs_of_no_errs (h : s.errs = []) (st : ErrStore) (lo hi : Nat) : clearErrs s st c lo hi = s := by
  unfold clearErrs
  rw [h, List.filter_nil, ← h]

theorem State.perform_load (h : s.errs = []) {a : MemAsk} {reg r : BitVec 7} {addr t : Nat} (hm : a.move = .load reg addr)
    (hs : a.stamps = [.reg r t]) (old : Mem) (w : List (Nat × Nat)) :
    s.perform c old w a = s.modSq c fun q => q.takeLate reg.toNat t (Mem.word (s.core c).cm.mem addr) := by
  unfold perform
  simp only [hm, hs, List.foldl_cons, List.foldl_nil]
  exact cmChecked_of_no_errs h _ _ _

/-- A narrow write takes its row first (R154). -/
theorem State.perform_narrow_store (h : s.errs = []) {a : MemAsk} {addr : Nat} {data : List Byte} (hm : a.move = .store addr data)
    (hn : a.narrow = true) (old : Mem) (w : List (Nat × Nat)) : s.perform c old w a = s.modCore c (·.narrowWrite a) := by
  unfold perform
  simp only [hm, hn, if_true]
  exact cmChecked_of_no_errs h _ _ _

theorem State.perform_wide_store (h : s.errs = []) {a : MemAsk} {addr : Nat} {data : List Byte} (hm : a.move = .store addr data)
    (hn : a.narrow = false) (old : Mem) (w : List (Nat × Nat)) : s.perform c old w a = s.cmWrite c addr data := by
  unfold perform
  simp only [hm, hn, Bool.false_eq_true, if_false]
  rw [clearErrs_of_no_errs h]

end

/-! ### When nothing keeps an access from its banks -/

theorem MemAsk.blocker_of_none_in_use (a : MemAsk) : a.blocker [] = none := by
  unfold blocker
  rw [List.findSome?_eq_none_iff]
  intro u _
  cases a.write <;> rfl

theorem MemAsk.blocker_of_no_rows {a : MemAsk} (h : a.rows = []) (inUse : List (Nat × PortUse)) : a.blocker inUse = none := by
  unfold blocker units
  rw [h]
  rfl

theorem filter_past {inUse : List (Nat × PortUse)} {clk : Nat} (h : ∀ e ∈ inUse, e.1 < clk) :
    (inUse.filter fun e => decide (clk ≤ e.1)) = [] := by
  rw [List.filter_eq_nil_iff]
  intro e he
  have := h e he
  simpa using this

/-! ### What a served access of a scalar word leaves -/

/-- A core whose register n has taken a word. -/
def CoreSt.loaded (k : CoreSt) (n : Nat) (v : Word) : CoreSt := { k with sq := k.sq.writeU n v }

/-- A core whose memory has taken bytes. -/
def CoreSt.stored (k : CoreSt) (a : Nat) (bs : List Byte) : CoreSt := { k with cm := { k.cm with mem := Mem.write k.cm.mem a bs } }

theorem CoreSt.keepsUnits_granted (k : CoreSt) (a : MemAsk) : k.keepsUnits (k.granted a) :=
  k.keepsUnits_withCm ⟨rfl, rfl, rfl, rfl, rfl, rfl, rfl⟩

theorem CoreSt.keepsUnits_narrowWrite (k : CoreSt) (a : MemAsk) : k.keepsUnits (k.narrowWrite a) :=
  k.keepsUnits_withCm ⟨rfl, rfl, rfl, rfl, rfl, rfl, rfl⟩

theorem CoreSt.keepsUnits_loaded (k : CoreSt) (n : Nat) (v : Word) : k.keepsUnits (k.loaded n v) := by
  obtain ⟨hst, hfault, himem, hstart, -, -⟩ := k.sq.writeU_keeps n v
  exact k.keepsUnits_withSq ⟨hfault, himem, hstart, hst⟩

namespace CoreSt.OnlyAsks
variable {k : CoreSt}

theorem granted (h : k.OnlyAsks) (a : MemAsk) : (k.granted a).OnlyAsks :=
  h.of_units rfl rfl rfl rfl (by simp [CoreSt.granted])

theorem loaded (h : k.OnlyAsks) (n : Nat) (v : Word) : (k.loaded n v).OnlyAsks := h.of_units rfl rfl rfl rfl h.steady

theorem stored (h : k.OnlyAsks) (a : Nat) (bs : List Byte) : (k.stored a bs).OnlyAsks := h.of_units rfl rfl rfl rfl h.steady

theorem narrowWrite (h : k.OnlyAsks) {a : MemAsk} (ha : a.steady) :
    (k.narrowWrite a).OnlyAsks := by
  refine h.of_units rfl rfl rfl rfl fun b hb => ?_
  rcases List.mem_append.1 hb with hb | hb
  · exact h.steady b hb
  · obtain ⟨x, hx, rfl⟩ := List.mem_map.1 hb
    rw [List.mem_singleton.1 hx]
    exact ha

end CoreSt.OnlyAsks

section
variable {s : State} {c : CoreId} {k : CoreSt} {a : MemAsk}

/-- The a-cycle that serves the load of a register that still awaits it. -/
theorem State.OnlyAsks.tick_load (h : s.OnlyAsks c) (he : s.errs = []) (hk : s.core c = k) (ha : k.Serves a)
    {reg r : BitVec 7} {addr t : Nat} (hm : a.move = .load reg addr) (hs : a.stamps = [.reg r t])
    (hv : (BitVec.ofNat 7 reg.toNat, t) ∈ k.sq.avail) :
    s.tick c = s.setCore c (((k.granted a).loaded reg.toNat (Mem.word k.cm.mem addr)).elapse 1) := by
  have moved : (s.setCore c (k.granted a)).perform c s.tier [] a
      = s.setCore c ((k.granted a).loaded reg.toNat (Mem.word k.cm.mem addr)) := by
    rw [State.perform_load (by exact he) hm hs, State.modSq, State.modCore_setCore, State.core_setCore_same]
    congr 1
    unfold CoreSt.loaded
    congr 1
    exact Sq.takeLate_of_awaited hv _
  rw [h.tick_of_one_due hk ha moved (h.setCore (((hk ▸ h.core).granted a).loaded _ _)), State.modCore_setCore]

/-- The a-cycle in which a narrow write takes its row. -/
theorem State.OnlyAsks.tick_narrow (h : s.OnlyAsks c) (he : s.errs = []) (hk : s.core c = k) (ha : k.Serves a)
    {addr : Nat} {data : List Byte} (hm : a.move = .store addr data) (hn : a.narrow = true) :
    s.tick c = s.setCore c (((k.granted a).narrowWrite a).elapse 1) := by
  have moved : (s.setCore c (k.granted a)).perform c s.tier [] a = s.setCore c ((k.granted a).narrowWrite a) := by
    rw [State.perform_narrow_store (by exact he) hm hn, State.modCore_setCore]
  rw [h.tick_of_one_due hk ha moved (h.setCore (((hk ▸ h.core).granted a).narrowWrite (by simp [MemAsk.steady, hm]))),
    State.modCore_setCore]

/-- The a-cycle in which bytes are written. -/
theorem State.OnlyAsks.tick_store (h : s.OnlyAsks c) (he : s.errs = []) (hk : s.core c = k) (ha : k.Serves a)
    {addr : Nat} {data : List Byte} (hm : a.move = .store addr data) (hn : a.narrow = false) :
    s.tick c = s.setCore c (((k.granted a).stored addr data).elapse 1) := by
  have moved : (s.setCore c (k.granted a)).perform c s.tier [] a = s.setCore c ((k.granted a).stored addr data) := by
    rw [State.perform_wide_store (by exact he) hm hn, State.cmWrite, State.modCm, State.modCore_setCore]
    rfl
  rw [h.tick_of_one_due hk ha moved (h.setCore (((hk ▸ h.core).granted a).stored _ _)), State.modCore_setCore]

end

end Sys2Proof.Machine
end

section
/-! The scalar instructions (R129 to R131): what each leaves on a calm core. -/

namespace Sys2Proof.Machine

/-! ### What is left of a calm core of which one core state is known -/

section
variable {s : State} {c : CoreId} {k : CoreSt}

theorem keepsRegs_setCore {ns : List Nat} (h : ∀ n, n < 68 → n ∉ ns → k.sq.reg n = (s.core c).sq.reg n) :
    keepsRegs c ns s (s.setCore c k) := by
  intro n hn hm
  rw [readU_eq_reg _ _ hn, readU_eq_reg _ _ hn, State.core_setCore_same, h n hn hm]

theorem State.onlyCore_setCore : s.onlyCore (s.setCore c k) c := ⟨fun _ h => s.core_setCore_ne h k, rfl⟩

theorem State.plainly_setCore {ns : List Nat} {n : Nat} (hr : ∀ m, m < 68 → m ∉ ns → k.sq.reg m = (s.core c).sq.reg m)
    (hu : (s.core c).keepsUnits k) (hpc : k.sq.pc.toNat = n) : s.plainly (s.setCore c k) c ns n := by
  refine ⟨keepsRegs_setCore hr, ?_, s.onlyCore_setCore, ?_⟩
  · rwa [State.core_setCore_same]
  · rwa [State.core_setCore_same]

/-- A calm core that can issue has no access to be served, nor anything else timed. -/
theorem State.calm.onlyAsks (h : s.calm c) (hi : s.canIssue c) : s.OnlyAsks c := by
  obtain ⟨hs, -, -⟩ := h
  obtain ⟨-, hw, -, hf⟩ := hi
  simp only [still, Bool.and_eq_true] at hs
  exact ⟨hw, hs.2, .of_still hs.1 hf⟩

theorem State.calm.no_asks (h : s.calm c) (hi : s.canIssue c) : (s.core c).cm.asks = [] := by
  have hs := (h.onlyAsks hi).core.still_eq
  obtain ⟨hc, -, -⟩ := h
  simp only [still, Bool.and_eq_true] at hc
  rw [hc.1] at hs
  exact List.isEmpty_iff.1 hs.symm

end

/-- The program counter after a bundle whose successor is a bundle of the program. -/
theorem CoreSt.issuedBy_pc_after {s : State} {c : CoreId} (h : (s.core c).sq.pc.toNat + 1 < 8192) (f : Sq → Sq) (asks : List MemAsk) :
    ((s.core c).issuedBy f asks (s.after c)).sq.pc.toNat = (s.core c).sq.pc.toNat + 1 := by
  rw [CoreSt.issuedBy_pc, BitVec.toNat_ofNat]
  exact Nat.mod_eq_of_lt h

/-! ### Instructions that write a register at issue (layouts SR and SI) -/

/-- What a scalar instruction of layout SR or SI leaves that issues alone: its register holds the word, cut to the register's width,
and on a calm core nothing else has changed. -/
theorem writes_register {op : BitVec 8} {i : Issue} {s : State} (h : IssuesAlone op i s) (hs : i.slot ≠ 2) {rd : Nat} (hrd : rd < 68)
    (v : Word) (lat : Nat) (hcalm : s.calm i.core) :
    readU (s.issued i.core (s.after i.core) (fun t => t.writeReg i.core rd v lat) id) i.core rd
        = readU (s.writeReg i.core rd v lat) i.core rd
      ∧ s.plainly (s.issued i.core (s.after i.core) (fun t => t.writeReg i.core rd v lat) id) i.core [rd]
          ((s.core i.core).sq.pc.toNat + 1) := by
  have hi := h.1
  have hf := Sq.onlyRegs_writeU rd lat v
  have issued : s.issued i.core (s.after i.core) (fun t => t.writeReg i.core rd v lat) id
      = s.setCore i.core ((s.core i.core).issuedBy (fun q => (q.writeU rd v).await rd lat) [] (s.after i.core)) :=
    (hcalm.onlyAsks hi).issued_eq (hcalm.no_asks hi) hf (by simp) (by simp) rfl
  rw [issued]
  refine ⟨?_, State.plainly_setCore (fun m _ hm => ?_) (CoreSt.keepsUnits_issuedBy hf rfl)
    (CoreSt.issuedBy_pc_after (h.next_lt hs) _ _)⟩
  · rw [readU_writeReg_same _ _ _ _ hrd, readU_eq_reg _ _ hrd, State.core_setCore_same, CoreSt.issuedBy_reg, Sq.reg_await,
      Sq.reg_writeU_same _ _ hrd]
  · rw [CoreSt.issuedBy_reg, Sq.reg_await, Sq.reg_writeU_ne _ _ (by simpa using hm)]
    rfl

/-- An instruction of R130 whose word computes `f` of its operands, available after `lat` a-cycles. -/
structure ScalarRow (l : ScalarLayout) (ctor : Issue → Instr) (op : BitVec 8) (lat : Nat) (f : Word → Word → Word) : Prop where
  instr : ∀ i, slotInstr op i = some (ctor i)
  layout : scalarLayout op.toNat = some l
  latency : scalarLat op.toNat = lat
  alu : ∀ x y, scalarAlu op.toNat x y = f x y

/-- An opcode with a layout lies in the range of the scalar slots (R122). -/
theorem scalarLayout_range {op : Nat} {l : ScalarLayout} (h : scalarLayout op = some l) : 1 ≤ op ∧ op ≤ 0x1F := by
  unfold scalarLayout at h
  split_ifs at h <;> omega

theorem scalar_slot_ne {op : BitVec 8} {i : Issue} {s : State} (h : IssuesAlone op i s) {l : ScalarLayout}
    (hl : scalarLayout op.toNat = some l) : i.slot ≠ 2 := by
  rcases scalar_slot h (scalarLayout_range hl).1 (scalarLayout_range hl).2 with e | e <;> rw [e] <;> decide

section
variable {l : ScalarLayout} {ctor : Issue → Instr} {op : BitVec 8} {lat : Nat} {f : Word → Word → Word}

theorem ScalarRow.exec_eq (row : ScalarRow l ctor op lat f) {i : Issue} {s : State} (h : IssuesAlone op i s) (hl : l ≠ .sm) :
    exec (ctor i) s = .next (s.issued i.core (s.after i.core) (scalarEffect s i.core op.toNat i.bits) id) := by
  obtain ⟨h1, h2⟩ := scalarLayout_range row.layout
  have none_asked : scalarAsks s i.core i.slot.toNat op.toNat i.bits = [] := by
    unfold scalarAsks
    split
    · next e => have := row.layout; rw [e] at this; exact absurd (Option.some.inj this).symm hl
    · next e => have := row.layout; rw [e] at this; exact absurd (Option.some.inj this).symm hl
    · rfl
  rw [exec_slotInstr (row.instr i), issue_scalar h h1 h2, none_asked]

theorem ScalarRow.dest_lt (row : ScalarRow l ctor op lat f) {i : Issue} {s : State} (h : IssuesAlone op i s) (hl : l ≠ .sm) :
    fld i.bits 55 49 < 68 := by
  obtain ⟨h1, h2⟩ := scalarLayout_range row.layout
  refine scalarDest_lt (h.scalarFault_none h1 h2) row.layout fun e => ?_
  have := row.layout
  rw [e] at this
  exact absurd (Option.some.inj this).symm hl

/-- An instruction of layout SR (R129, R130). -/
theorem ScalarRow.writes_sr (row : ScalarRow .sr ctor op lat f) {i : Issue} {s : State} (h : IssuesAlone op i s) :
    let c := i.core
    let rd := fld i.bits 55 49
    let v := f (readU s c (fld i.bits 48 42)) (readU s c (fld i.bits 41 35))
    ∃ t, exec (ctor i) s = .next t ∧ t = s.issued c (s.after c) (fun t => t.writeReg c rd v lat) id
      ∧ (s.calm c → readU t c rd = readU (s.writeReg c rd v lat) c rd ∧ s.plainly t c [rd] ((s.core c).sq.pc.toNat + 1)) := by
  have effect : scalarEffect s i.core op.toNat i.bits = fun t => t.writeReg i.core (fld i.bits 55 49)
      (f (readU s i.core (fld i.bits 48 42)) (readU s i.core (fld i.bits 41 35))) lat := by
    funext t
    unfold scalarEffect
    rw [row.layout, row.latency, ← row.alu]
  refine ⟨_, effect ▸ row.exec_eq h (by decide), rfl, fun hcalm => ?_⟩
  exact writes_register h (scalar_slot_ne h row.layout) (row.dest_lt h (by decide)) _ _ hcalm

/-- An instruction of layout SI: its second operand is the sign-extended immediate (R129, R130). -/
theorem ScalarRow.writes_si (row : ScalarRow .si ctor op lat f) {i : Issue} {s : State} (h : IssuesAlone op i s) :
    let c := i.core
    let rd := fld i.bits 55 49
    let v := f (readU s c (fld i.bits 48 42)) (BitVec.ofInt 64 (i.bits.extractLsb' 0 32).toInt)
    ∃ t, exec (ctor i) s = .next t ∧ t = s.issued c (s.after c) (fun t => t.writeReg c rd v lat) id
      ∧ (s.calm c → readU t c rd = readU (s.writeReg c rd v lat) c rd ∧ s.plainly t c [rd] ((s.core c).sq.pc.toNat + 1)) := by
  have effect : scalarEffect s i.core op.toNat i.bits = fun t => t.writeReg i.core (fld i.bits 55 49)
      (f (readU s i.core (fld i.bits 48 42)) (BitVec.ofInt 64 (i.bits.extractLsb' 0 32).toInt)) lat := by
    funext t
    unfold scalarEffect
    rw [row.layout, row.latency, ← row.alu]
    rfl
  refine ⟨_, effect ▸ row.exec_eq h (by decide), rfl, fun hcalm => ?_⟩
  exact writes_register h (scalar_slot_ne h row.layout) (row.dest_lt h (by decide)) _ _ hcalm

end

/-- LUI puts the low half of the immediate above the low half of its register (R130). -/
theorem append_halves (x y : Word) :
    (y.extractLsb' 0 32 ++ x.extractLsb' 0 32 : Word) = BitVec.ofNat 64 (x.toNat % 2 ^ 32 + y.toNat % 2 ^ 32 * 2 ^ 32) := by
  apply BitVec.eq_of_toNat_eq
  rw [BitVec.toNat_append, BitVec.extractLsb'_toNat, BitVec.extractLsb'_toNat, BitVec.toNat_ofNat, Nat.shiftRight_zero,
    Nat.shiftRight_zero, ← Nat.shiftLeft_add_eq_or_of_lt (Nat.mod_lt _ (by decide)), Nat.shiftLeft_eq]
  omega

/-! ### LDN and STN -/

section
variable {s : State} {c : CoreId} {n : NextPc} {a : MemAsk} {addr : Nat}

/-- The access of a scalar word is the only one of its core in the a-cycle after the word's issue, and its bank is free. -/
theorem CoreSt.issuedBy_serves {k : CoreSt} {f : Sq → Sq} (hk : k.cm.asks = []) (hu : ∀ e ∈ k.cm.inUse, e.1 ≤ k.sq.clk)
    (hf : Sq.onlyRegs f) (hat : a.at_ = k.sq.clk + 1) (hc : a.code < 16) (hp : a.port = .bank) :
    (k.issuedBy f [a] n).Serves { a with id := k.cm.nextAsk } where
  only := issuedBy_asks hk
  due := (hat.trans (issuedBy_clk hf).symm).le
  code := hc
  port := hp
  free := by
    rw [issuedBy_inUse, issuedBy_clk hf, filter_past fun e m => Nat.lt_succ_of_le (hu e m)]
    exact MemAsk.blocker_of_none_in_use _

/-- A core four a-cycles after it issued an LDN whose access nothing held. -/
def CoreSt.afterLoad (k : CoreSt) (a : MemAsk) (rd addr : Nat) (n : NextPc) : CoreSt :=
  ((((k.issuedBy (·.await rd 4) [a] n).granted { a with id := k.cm.nextAsk }).loaded rd (Mem.word k.cm.mem addr)).elapse 1).elapse 2

/-- The access of an LDN is served in the a-cycle after its issue. -/
theorem State.OnlyAsks.pass_load (h : s.OnlyAsks c) (he : s.errs = []) (hk : (s.core c).cm.asks = [])
    (hu : ∀ e ∈ (s.core c).cm.inUse, e.1 ≤ (s.core c).sq.clk) (hat : a.at_ = (s.core c).sq.clk + 1) (hc : a.code < 16)
    (hp : a.port = .bank) {rd : Nat} (hrd : rd < 128) (hm : a.move = .load (BitVec.ofNat 7 rd) addr)
    (hs : a.stamps = [.reg (BitVec.ofNat 7 rd) ((s.core c).sq.clk + 4)]) :
    (s.setCore c ((s.core c).issuedBy (·.await rd 4) [a] n)).pass c 3 = s.setCore c ((s.core c).afterLoad a rd addr n) := by
  have hreg : (BitVec.ofNat 7 rd).toNat = rd := by rw [BitVec.toNat_ofNat, Nat.mod_eq_of_lt hrd]
  have serves := CoreSt.issuedBy_serves (n := n) hk hu (Sq.onlyRegs_await rd 4) hat hc hp
  have only := h.core.issuedBy (f := (·.await rd 4)) (asks := [a]) (n := n) (by simp [MemAsk.steady, hm])
  have waits := h.setCore only
  have awaited : (BitVec.ofNat 7 (BitVec.ofNat 7 rd).toNat, (s.core c).sq.clk + 4)
      ∈ ((s.core c).issuedBy (·.await rd 4) [a] n).sq.avail := by
    rw [CoreSt.issuedBy_avail, hreg]
    exact List.mem_cons_self
  have served := waits.tick_load he (State.core_setCore_same ..) serves hm hs awaited
  rw [hreg, CoreSt.issuedBy_mem, State.setCore_setCore] at served
  rw [waits.pass_succ (by rw [State.core_setCore_same, serves.only]; simp), served,
    (h.setCore (((only.granted _).loaded rd _).elapse 1)).pass_of_no_asks (by rw [State.core_setCore_same, CoreSt.elapse_asks]; rfl),
    State.modCore_setCore]
  rfl

theorem CoreSt.keepsUnits_afterLoad (k : CoreSt) (a : MemAsk) (rd addr : Nat) {n : NextPc} (hn : n.halt = false) :
    k.keepsUnits (k.afterLoad a rd addr n) :=
  ((((keepsUnits_issuedBy (Sq.onlyRegs_await rd 4) hn).trans (keepsUnits_granted _ _)).trans (keepsUnits_loaded _ _ _)).trans
    (keepsUnits_elapse _ 1)).trans (keepsUnits_elapse _ 2)

theorem CoreSt.afterLoad_reg (k : CoreSt) (a : MemAsk) (rd addr : Nat) (n : NextPc) (m : Nat) :
    (k.afterLoad a rd addr n).sq.reg m
      = ((k.issuedBy (·.await rd 4) [a] n).sq.writeU rd (Mem.word k.cm.mem addr)).reg m := by
  unfold afterLoad
  rw [elapse_reg, elapse_reg]
  rfl

theorem CoreSt.afterLoad_pc (k : CoreSt) (a : MemAsk) (rd addr : Nat) (n : NextPc) :
    (k.afterLoad a rd addr n).sq.pc = (k.issuedBy (·.await rd 4) [a] n).sq.pc := by
  obtain ⟨-, -, -, -, hpc, -⟩ := (k.issuedBy (·.await rd 4) [a] n).sq.writeU_keeps rd (Mem.word k.cm.mem addr)
  unfold afterLoad
  rw [elapse_pc, elapse_pc]
  exact hpc

/-- The write of a word whose row a narrow write has taken in a-cycle `clk` (R154). -/
def MemAsk.wordWrite (a : MemAsk) (clk : Nat) : MemAsk :=
  { a with seq := a.seq + 1, narrow := false, rows := [], at_ := clk + 2, stamps := [] }

/-- A core two a-cycles after it issued an STN whose access nothing held: its row is taken. -/
def CoreSt.afterRow (k : CoreSt) (a : MemAsk) (n : NextPc) : CoreSt :=
  let b : MemAsk := { a with id := k.cm.nextAsk }
  (((k.issuedBy id [a] n).granted b).narrowWrite b).elapse 1

/-- The core two a-cycles later, when the word has been written. -/
def CoreSt.afterStore (k : CoreSt) (a : MemAsk) (addr : Nat) (data : List Byte) (n : NextPc) : CoreSt :=
  ((((k.afterRow a n).elapse 1).granted (({ a with id := k.cm.nextAsk } : MemAsk).wordWrite (k.sq.clk + 1))).stored addr data).elapse 1

theorem CoreSt.afterRow_asks (k : CoreSt) (a : MemAsk) (n : NextPc) :
    (k.afterRow a n).cm.asks = [({ a with id := k.cm.nextAsk } : MemAsk).wordWrite (k.sq.clk + 1)] := by
  unfold afterRow
  rw [elapse_asks, ← issuedBy_clk (k := k) (asks := [a]) (n := n) Sq.onlyRegs_id]
  rfl

theorem CoreSt.afterRow_clk (k : CoreSt) (a : MemAsk) (n : NextPc) : (k.afterRow a n).sq.clk = k.sq.clk + 2 :=
  (elapse_clk _ 1).trans (congrArg (· + 1) (issuedBy_clk Sq.onlyRegs_id))

/-- The access of an STN takes its row in the a-cycle after its issue, and writes two a-cycles later. -/
theorem State.OnlyAsks.pass_store (h : s.OnlyAsks c) (he : s.errs = []) (hk : (s.core c).cm.asks = [])
    (hu : ∀ e ∈ (s.core c).cm.inUse, e.1 ≤ (s.core c).sq.clk) (hat : a.at_ = (s.core c).sq.clk + 1) (hc : a.code < 16)
    (hp : a.port = .bank) {data : List Byte} (hm : a.move = .store addr data) (hn : a.narrow = true) :
    (s.setCore c ((s.core c).issuedBy id [a] n)).pass c 3 = s.setCore c ((s.core c).afterStore a addr data n) := by
  have steady : a.steady := by simp [MemAsk.steady, hm]
  have serves := CoreSt.issuedBy_serves (n := n) hk hu Sq.onlyRegs_id hat hc hp
  have only := h.core.issuedBy (f := id) (asks := [a]) (n := n) (by simpa using steady)
  have issued := h.setCore only
  have onlyRow : ((s.core c).afterRow a n).OnlyAsks :=
    ((only.granted _).narrowWrite (a := { a with id := (s.core c).cm.nextAsk }) steady).elapse 1
  have row := h.setCore onlyRow
  have later := h.setCore (onlyRow.elapse 1)
  have none_due : ((s.setCore c ((s.core c).afterRow a n)).core c).due = [] := by
    rw [State.core_setCore_same, CoreSt.due, CoreSt.afterRow_asks, CoreSt.afterRow_clk]
    simp [MemAsk.wordWrite]
  have serves_word : (((s.core c).afterRow a n).elapse 1).Serves
      (({ a with id := (s.core c).cm.nextAsk } : MemAsk).wordWrite ((s.core c).sq.clk + 1)) :=
    { only := by rw [CoreSt.elapse_asks, CoreSt.afterRow_asks]
      due := by rw [CoreSt.elapse_clk, CoreSt.afterRow_clk]; exact Nat.le_refl _
      code := hc
      port := hp
      free := MemAsk.blocker_of_no_rows rfl _ }
  calc (s.setCore c ((s.core c).issuedBy id [a] n)).pass c 3
      = (s.setCore c ((s.core c).afterRow a n)).pass c 2 := by
        rw [issued.pass_succ (by rw [State.core_setCore_same, serves.only]; simp),
          issued.tick_narrow he (State.core_setCore_same ..) serves hm hn, State.setCore_setCore]
        rfl
    _ = (s.setCore c (((s.core c).afterRow a n).elapse 1)).pass c 1 := by
        rw [row.pass_succ (by rw [State.core_setCore_same, CoreSt.afterRow_asks]; simp), row.tick_of_none_due none_due,
          State.modCore_setCore]
    _ = s.setCore c ((s.core c).afterStore a addr data n) := by
        rw [later.pass_succ (by rw [State.core_setCore_same, serves_word.only]; simp), State.pass_zero,
          later.tick_store he (State.core_setCore_same ..) serves_word hm rfl, State.setCore_setCore]
        rfl

/-- What cores keep, they keep when both have stored the same bytes. -/
theorem CoreSt.keepsUnits.stored {j k : CoreSt} (h : j.keepsUnits k) (a : Nat) (bs : List Byte) :
    (j.stored a bs).keepsUnits (k.stored a bs) := by
  obtain ⟨hsq, hme, hve, ⟨hmem, hcm⟩, hdma, hcq⟩ := h
  exact ⟨hsq, hme, hve, ⟨congrArg (Mem.write · a bs) hmem, hcm⟩, hdma, hcq⟩

/-- A core that has issued an STN differs from one that has stored the word at once in its registers, its counts and its ports only. -/
theorem CoreSt.keepsUnits_afterStore (k : CoreSt) (a : MemAsk) (addr : Nat) (data : List Byte) {n : NextPc} (hn : n.halt = false) :
    (k.stored addr data).keepsUnits (k.afterStore a addr data n) := by
  have row : k.keepsUnits (k.afterRow a n) :=
    (((keepsUnits_issuedBy Sq.onlyRegs_id hn).trans (keepsUnits_granted _ _)).trans (keepsUnits_narrowWrite _ _)).trans
      (keepsUnits_elapse _ 1)
  exact (((row.trans (keepsUnits_elapse _ 1)).trans (keepsUnits_granted _ _)).stored addr data).trans (keepsUnits_elapse _ 1)

theorem CoreSt.afterStore_reg (k : CoreSt) (a : MemAsk) (addr : Nat) (data : List Byte) (n : NextPc) (m : Nat) :
    (k.afterStore a addr data n).sq.reg m = k.sq.reg m :=
  calc (k.afterStore a addr data n).sq.reg m
      = ((k.afterRow a n).elapse 1).sq.reg m := elapse_reg _ 1 m
    _ = (k.issuedBy id [a] n).sq.reg m := (elapse_reg _ 1 m).trans (elapse_reg _ 1 m)
    _ = k.sq.reg m := issuedBy_reg m

theorem CoreSt.afterStore_pc (k : CoreSt) (a : MemAsk) (addr : Nat) (data : List Byte) (n : NextPc) :
    (k.afterStore a addr data n).sq.pc = (k.issuedBy id [a] n).sq.pc :=
  (elapse_pc _ 1).trans ((elapse_pc _ 1).trans (elapse_pc _ 1))

end

/-- The access of an LDN in a scalar slot that issues in a-cycle `clk` (R131, R156). -/
def ldnAsk (slot : BitVec 3) (rd addr clk : Nat) : MemAsk :=
  { code := slot.toNat + 1, seq := 0, rows := [addr / 256], at_ := clk + 1, stamps := [.reg (BitVec.ofNat 7 rd) (clk + 4)]
    move := .load (BitVec.ofNat 7 rd) addr }

/-- The access of an STN (R131, R154, R156). -/
def stnAsk (slot : BitVec 3) (addr clk : Nat) (v : Word) : MemAsk :=
  { code := slot.toNat + 1, seq := 0, write := true, narrow := true, rows := [addr / 256], at_ := clk + 1
    move := .store addr (wordBytes v) }

theorem slot_code_lt (slot : BitVec 3) : slot.toNat + 1 < 16 := by
  have := slot.isLt
  omega

/-- LDN (R130, R131): on a calm core its register holds the word of core memory four a-cycles after its issue. -/
theorem ldn_loads {i : Issue} {s : State} (h : IssuesAlone 0x1C i s) :
    let c := i.core
    let a := narrowAddr (s.core c) i.bits
    let rd := fld i.bits 55 49
    ∃ u, exec (.ldn i) s = .next u
      ∧ u = s.issued c (s.after c) (fun t => t.modSq c fun q => q.await rd 4) id [ldnAsk i.slot rd a (s.core c).sq.clk]
      ∧ (s.calm c → readU (u.pass c 3) c rd = readU (s.writeReg c rd (Mem.word (s.core c).cm.mem a) 4) c rd
          ∧ s.plainly (u.pass c 3) c [rd] ((s.core c).sq.pc.toNat + 1)) := by
  intro c a rd
  refine ⟨s.issued c (s.after c) (fun t => t.modSq c (·.await rd 4)) id [ldnAsk i.slot rd a (s.core c).sq.clk],
    issue_scalar h (by decide) (by decide), rfl, fun hcalm => ?_⟩
  have hrd : rd < 68 := scalarDest_lt (h.scalarFault_none (by decide) (by decide)) (l := .sm) rfl (by decide)
  have hpc := h.next_lt (scalar_slot_ne h (l := .sm) rfl)
  have only := hcalm.onlyAsks h.1
  have none_asked := hcalm.no_asks h.1
  obtain ⟨-, he, hu⟩ := hcalm
  have issued : s.issued c (s.after c) (fun t => t.modSq c (·.await rd 4)) id [ldnAsk i.slot rd a (s.core c).sq.clk]
      = s.setCore c ((s.core c).issuedBy (·.await rd 4) [ldnAsk i.slot rd a (s.core c).sq.clk] (s.after c)) :=
    only.issued_eq none_asked (Sq.onlyRegs_await rd 4) (by simp [ldnAsk, MemAsk.steady]) (by simp [ldnAsk]) rfl
  rw [issued, only.pass_load he none_asked hu rfl (slot_code_lt i.slot) rfl (by omega) rfl rfl]
  refine ⟨?_, State.plainly_setCore (fun m _ hm => ?_) (CoreSt.keepsUnits_afterLoad _ _ _ _ rfl) ?_⟩
  · rw [readU_writeReg_same _ _ _ _ hrd, readU_eq_reg _ _ hrd, State.core_setCore_same, CoreSt.afterLoad_reg,
      Sq.reg_writeU_same _ _ hrd]
  · rw [CoreSt.afterLoad_reg, Sq.reg_writeU_ne _ _ (by simpa using hm), CoreSt.issuedBy_reg]
    rfl
  · rw [CoreSt.afterLoad_pc]
    exact CoreSt.issuedBy_pc_after hpc _ _

/-- STN (R130, R131, R154): on a calm core three a-cycles after its issue core memory holds its register's word, and no other byte of it
and nothing else has changed. -/
theorem stn_stores {i : Issue} {s : State} (h : IssuesAlone 0x1D i s) :
    let c := i.core
    let k := s.core c
    let a := narrowAddr k i.bits
    let w := readU s c (fld i.bits 55 49)
    ∃ u, exec (.stn i) s = .next u
      ∧ u = s.issued c (s.after c) id id [stnAsk i.slot a k.sq.clk w]
      ∧ (s.calm c →
          let v := u.pass c 3
          Mem.read (v.core c).cm.mem a 8 = wordBytes w
            ∧ (∀ x, x < a ∨ a + 8 ≤ x → Mem.get (v.core c).cm.mem x = Mem.get k.cm.mem x)
            ∧ keepsRegs c [] s v ∧ k.keepsSq (v.core c) ∧ k.keepsMe (v.core c) ∧ k.keepsVe (v.core c)
            ∧ k.keepsDma (v.core c) ∧ k.keepsCq (v.core c) ∧ s.onlyCore v c ∧ (v.core c).sq.pc.toNat = k.sq.pc.toNat + 1) := by
  intro c k a w
  refine ⟨s.issued c (s.after c) id id [stnAsk i.slot a k.sq.clk w], issue_scalar h (by decide) (by decide), rfl, fun hcalm => ?_⟩
  have hpc := h.next_lt (scalar_slot_ne h (l := .sm) rfl)
  have only := hcalm.onlyAsks h.1
  have none_asked := hcalm.no_asks h.1
  obtain ⟨-, he, hu⟩ := hcalm
  have same (t : State) : t.modSq c id = t := State.modCore_of_fixed rfl
  have issued : s.issued c (s.after c) id id [stnAsk i.slot a k.sq.clk w]
      = s.setCore c (k.issuedBy id [stnAsk i.slot a k.sq.clk w] (s.after c)) := by
    rw [← only.issued_eq none_asked Sq.onlyRegs_id (by simp [stnAsk, MemAsk.steady]) (by simp [stnAsk, k]) rfl]
    simp only [same]
    rfl
  rw [issued, only.pass_store he none_asked hu rfl (slot_code_lt i.slot) rfl rfl rfl]
  intro v
  have hv : v.core c = k.afterStore (stnAsk i.slot a k.sq.clk w) a (wordBytes w) (s.after c) := State.core_setCore_same ..
  obtain ⟨hsq, hme, hve, ⟨hmem, -⟩, hdma, hcq⟩ :=
    k.keepsUnits_afterStore (stnAsk i.slot a k.sq.clk w) a (wordBytes w) (n := s.after c) rfl
  rw [hv, hmem]
  refine ⟨?_, fun x hx => ?_, keepsRegs_setCore fun m _ _ => k.afterStore_reg _ _ _ _ m, hsq, hme, hve, hdma, hcq,
    s.onlyCore_setCore, ?_⟩
  · exact (congrArg (Mem.read _ a) (wordBytes_length w)).symm.trans (Mem.read_write_same _ _ _)
  · rcases hx with hx | hx
    · exact Mem.get_write_of_lt hx
    · exact Mem.get_write_of_ge (by rwa [wordBytes_length])
  · rw [CoreSt.afterStore_pc]
    exact CoreSt.issuedBy_pc_after hpc _ _

/-! ### The rows of R130 -/

/-- Settles O3: the rows of layouts SR and SI by `ScalarRow.writes_sr` and `ScalarRow.writes_si`, LDN and STN by the a-cycles that serve
their accesses. -/
theorem scalarOpcodes : Obligations.ScalarOpcodes := by
  refine ⟨fun ctor op lat f hrow i s h => ?_, fun ctor op lat f hrow i s h => ?_, fun i s => ⟨ldn_loads, stn_stores⟩,
    fun i op hop => ?_⟩
  · have row : ScalarRow .sr ctor op lat f := by
      simp only [List.mem_cons, List.not_mem_nil, or_false, Prod.mk.injEq] at hrow
      rcases hrow with ⟨rfl, rfl, rfl, rfl⟩ | ⟨rfl, rfl, rfl, rfl⟩ | ⟨rfl, rfl, rfl, rfl⟩ | ⟨rfl, rfl, rfl, rfl⟩
        | ⟨rfl, rfl, rfl, rfl⟩ | ⟨rfl, rfl, rfl, rfl⟩ | ⟨rfl, rfl, rfl, rfl⟩ | ⟨rfl, rfl, rfl, rfl⟩ | ⟨rfl, rfl, rfl, rfl⟩
        | ⟨rfl, rfl, rfl, rfl⟩ | ⟨rfl, rfl, rfl, rfl⟩ | ⟨rfl, rfl, rfl, rfl⟩ | ⟨rfl, rfl, rfl, rfl⟩ | ⟨rfl, rfl, rfl, rfl⟩
      all_goals exact ⟨fun _ => rfl, rfl, rfl, fun x y => by simp [scalarAlu, BitVec.slt, BitVec.ult]⟩
    exact row.writes_sr h
  · have row : ScalarRow .si ctor op lat f := by
      simp only [List.mem_cons, List.not_mem_nil, or_false, Prod.mk.injEq] at hrow
      rcases hrow with ⟨rfl, rfl, rfl, rfl⟩ | ⟨rfl, rfl, rfl, rfl⟩ | ⟨rfl, rfl, rfl, rfl⟩ | ⟨rfl, rfl, rfl, rfl⟩
        | ⟨rfl, rfl, rfl, rfl⟩ | ⟨rfl, rfl, rfl, rfl⟩ | ⟨rfl, rfl, rfl, rfl⟩ | ⟨rfl, rfl, rfl, rfl⟩ | ⟨rfl, rfl, rfl, rfl⟩
      pick_goal 8
      · exact ⟨fun _ => rfl, rfl, rfl, append_halves⟩
      all_goals exact ⟨fun _ => rfl, rfl, rfl, fun _ _ => rfl⟩
    exact row.writes_si h
  · simp only [List.mem_cons, List.not_mem_nil, or_false] at hop
    rcases hop with rfl | rfl | rfl | rfl | rfl | rfl <;> rfl

end Sys2Proof.Machine
end

section
/-! The page-map window (R203): a written word is read back there, and each half of it is an entry. -/

namespace Sys2Proof.Machine

/-! ### Parts of little-endian numbers -/

theorem ofLe_append (xs ys : List Byte) : ofLe (xs ++ ys) = ofLe xs + 256 ^ xs.length * ofLe ys := by
  induction xs with
  | nil => simp [ofLe]
  | cons x xs ih =>
    rw [List.cons_append, ofLe, ih, ofLe, List.length_cons, Nat.pow_succ]
    ring

theorem ofLe_lt (bs : List Byte) : ofLe bs < 256 ^ bs.length := by
  induction bs with
  | nil => simp [ofLe]
  | cons b bs ih =>
    have hb := b.isLt
    rw [ofLe, List.length_cons, Nat.pow_succ]
    omega

@[simp] theorem Mem.read_length (m : Mem) (a n : Nat) : (Mem.read m a n).length = n := by simp [Mem.read]

theorem Mem.read_add (m : Mem) (a p q : Nat) : Mem.read m a (p + q) = Mem.read m a p ++ Mem.read m (a + p) q := by
  simp [Mem.read, List.range_add, Function.comp_def, Nat.add_assoc]

theorem Mem.num_lt (m : Mem) (a n : Nat) : Mem.num m a n < 256 ^ n := by
  simpa [Mem.num] using ofLe_lt (Mem.read m a n)

theorem Mem.num_add (m : Mem) (a p q : Nat) : Mem.num m a (p + q) = Mem.num m a p + 256 ^ p * Mem.num m (a + p) q := by
  rw [Mem.num, Mem.read_add, ofLe_append, Mem.read_length, Mem.num, Mem.num]

theorem Mem.word_toNat (m : Mem) (a : Nat) : (Mem.word m a).toNat = Mem.num m a 4 + 2 ^ 32 * Mem.num m (a + 4) 4 := by
  have whole : Mem.num m a 8 < 2 ^ 64 := Mem.num_lt m a 8
  rw [Mem.word, BitVec.toNat_ofNat, Nat.mod_eq_of_lt whole]
  exact Mem.num_add m a 4 4

theorem Mem.word_low (m : Mem) (a : Nat) : (Mem.word m a).extractLsb' 0 32 = BitVec.ofNat 32 (Mem.num m a 4) := by
  apply BitVec.eq_of_toNat_eq
  rw [BitVec.extractLsb'_toNat, Mem.word_toNat, BitVec.toNat_ofNat, Nat.shiftRight_zero, Nat.add_mul_mod_self_left]

theorem Mem.word_high (m : Mem) (a : Nat) : (Mem.word m a).extractLsb' 32 32 = BitVec.ofNat 32 (Mem.num m (a + 4) 4) := by
  have low : Mem.num m a 4 < 2 ^ 32 := Mem.num_lt m a 4
  apply BitVec.eq_of_toNat_eq
  rw [BitVec.extractLsb'_toNat, Mem.word_toNat, BitVec.toNat_ofNat, Nat.shiftRight_eq_div_pow,
    Nat.add_mul_div_left _ _ (by decide), Nat.div_eq_of_lt low, Nat.zero_add]

/-! ### Entries and words of the window -/

theorem pageEntry_even (s : State) (n : Nat) :
    pageEntry s (2 * n / 4096) (2 * n % 4096) = (Mem.word s.pageMap (8 * n)).extractLsb' 0 32 := by
  have place : 4 * (2 * n / 4096 * 4096 + 2 * n % 4096) = 8 * n := by omega
  rw [pageEntry, place, Mem.word_low]

theorem pageEntry_odd (s : State) (n : Nat) :
    pageEntry s ((2 * n + 1) / 4096) ((2 * n + 1) % 4096) = (Mem.word s.pageMap (8 * n)).extractLsb' 32 32 := by
  have place : 4 * ((2 * n + 1) / 4096 * 4096 + (2 * n + 1) % 4096) = 8 * n + 4 := by omega
  rw [pageEntry, place, Mem.word_high]

/-! ### A write of the window -/

/-- A tapped row changes the continuity unit only, or is lost with a report (R386, R393); neither fail-stops. -/
theorem tapRow_eq (s : State) (part : BitVec 3) (ta : Nat) (data : List Byte) (ackreq : Bool) :
    ∃ cu ms out, tapRow s part ta data ackreq = { s with cu, ms, out } ∧ cu.failstop = s.cu.failstop := by
  unfold tapRow
  split
  · exact ⟨_, _, _, rfl, rfl⟩
  · exact ⟨_, s.ms, s.out, rfl, rfl⟩

/-- The state whose page map holds a word at index `w` of the window, its granule free of errors. -/
def State.withMapWord (s : State) (w : BitVec 20) (v : Word) : State :=
  clearErrs { s with pageMap := Mem.setWord s.pageMap (8 * w.toNat) v } .pageMap 0 (8 * w.toNat / 32 * 32) (8 * w.toNat / 32 * 32 + 32)

/-- All that a write of the window does: the word, and with the mirror on the tap of its row. -/
theorem pageMapWrite_eq (w : BitVec 20) (v : Word) (s : State) :
    ∃ cu ms out, pageMapWrite w v s = { s.withMapWord w v with cu, ms, out } ∧ cu.failstop = s.cu.failstop
      ∧ (bit s.cu.mirrorCfg 63 = false → out = s.out) := by
  cases hm : bit s.cu.mirrorCfg 63
  · exact ⟨s.cu, s.ms, s.out, if_neg (by simp [clearErrs, hm]), rfl, fun _ => rfl⟩
  · obtain ⟨cu, ms, out, htap, hf⟩ := tapRow_eq (s.withMapWord w v) 2
      (s.cu.mirrorArea.toNat + 0x800000 + 8 * w.toNat / 256 * 256)
      (Mem.read (s.withMapWord w v).pageMap (8 * w.toNat / 256 * 256) 256) false
    exact ⟨cu, ms, out, (if_pos hm).trans htap, hf, fun h => by simp at h⟩

/-- A write that covers the granules of a read leaves no error for it. -/
theorem errsIn_clearErrs {s : State} {st : ErrStore} {c : CoreId} {lo hi a b : Nat} (ha : lo ≤ a / 32 * 32) (hb : b ≤ hi) :
    errsIn (clearErrs s st c lo hi) st c a b = [] := by
  rw [errsIn, List.filter_eq_nil_iff]
  intro e he hin
  simp only [clearErrs, List.mem_filter, Bool.not_eq_true', Bool.and_eq_false_iff, decide_eq_false_iff_not] at he
  simp only [Bool.and_eq_true, decide_eq_true_eq] at hin
  obtain ⟨-, hout⟩ := he
  obtain ⟨⟨⟨hst, hcore⟩, hlo⟩, hhi⟩ := hin
  rcases hout with ((h | h) | h) | h
  · exact absurd hst (by simp [h])
  · exact absurd hcore (by simp [h])
  · omega
  · omega

theorem errsIn_withMapWord (s : State) (w : BitVec 20) (v : Word) :
    errsIn (s.withMapWord w v) .pageMap 0 (8 * w.toNat) (8 * w.toNat + 8) = [] :=
  errsIn_clearErrs (by omega) (by omega)

/-! ### A read of the window -/

theorem imageRead_of_none {s : State} {st : ErrStore} {c : CoreId} {a : Nat} (hf : s.cu.failstop = false)
    (he : errsIn s st c a (a + 8) = []) (m : Mem) : imageRead st c m a s = (ok (Mem.word m a), s) := by
  simp [imageRead, checked_of_none he, hf]

/-- The window in the map of management addresses (R426). -/
theorem mgmtRead_pageMap (s : State) {n : Nat} (hn : n < 2 ^ 20) :
    mgmtRead (0x0500000000 + 8 * n) s = imageRead .pageMap 0 s.pageMap (8 * n) s := by
  simp (disch := omega) only [mgmtRead, inArray, decide_eq_true_eq, if_neg, if_pos, Nat.add_sub_cancel_left]

theorem mgmtRead_pageMap_word {s : State} {n : Nat} (hn : n < 2 ^ 20) (hf : s.cu.failstop = false)
    (he : errsIn s .pageMap 0 (8 * n) (8 * n + 8) = []) :
    (mgmtRead (0x0500000000 + 8 * n) s).1 = (.ok, Mem.word s.pageMap (8 * n)) := by
  rw [mgmtRead_pageMap s hn, imageRead_of_none hf he, ok]

/-! ### The window as a whole -/

theorem exec_pageMapWrite {s : State} (hf : s.cu.failstop = false) (w : BitVec 20) (v : Word) :
    exec (.pageMapWrite w v) s
      = .next ((pageMapWrite w v s).emit (.mgmt (0x0500000000 + 8 * w.toNat) true .ok 0)) := by
  show Host.Outcome.next (s.mgmtOp (0x0500000000 + 8 * w.toNat) fun s => (.ok, pageMapWrite w v s)) = _
  rw [State.mgmtOp, hf]
  rfl

/-- Settles O23: what a write of the window does is `pageMapWrite_eq`; the word is read back as its granule is then free of errors,
and its halves are the entries. -/
theorem pageMapWrites : Obligations.PageMapWrites := by
  intro w v s hf
  obtain ⟨cu, ms, out, hwrite, hcu, hout⟩ := pageMapWrite_eq w v s
  have word : Mem.word (pageMapWrite w v s).pageMap (8 * w.toNat) = v := by
    rw [hwrite]
    exact Mem.word_setWord_same _ _ _
  have clean : errsIn (pageMapWrite w v s) .pageMap 0 (8 * w.toNat) (8 * w.toNat + 8) = [] := by
    rw [hwrite]
    exact errsIn_withMapWord s w v
  have works : (pageMapWrite w v s).cu.failstop = false := by rw [hwrite, hcu, hf]
  refine ⟨_, exec_pageMapWrite hf w v, ?_, ?_, ?_, fun x hx => ?_, ?_, ?_, fun hm => ?_⟩
  · rw [mgmtRead_pageMap_word w.isLt, State.emit_pageMap, word]
    · exact works
    · exact clean
  · rw [pageEntry_even, State.emit_pageMap, word]
  · rw [pageEntry_odd, State.emit_pageMap, word]
  · rw [State.emit_pageMap, hwrite]
    rcases hx with hx | hx
    · exact Mem.get_write_of_lt hx
    · exact Mem.get_write_of_ge (by rwa [wordBytes_length])
  · rw [State.emit_tier, hwrite]
    rfl
  · rw [State.emit_cores, hwrite]
    rfl
  · rw [State.emit_out, hwrite, hout hm]

end Sys2Proof.Machine
end

section
/-! Writes of MS_CLK_STEP (R432, R433): which of them are refused, and what an accepted one leaves. -/

namespace Sys2Proof.Machine

/-- A management write on a package that works: its effect, then its completion. -/
theorem State.mgmtOp_of_works {s : State} (hf : s.cu.failstop = false) (a : Nat) (f : State → Status × State) :
    s.mgmtOp a f = (f s).2.emit (.mgmt a true (f s).1 0) := by
  simp [State.mgmtOp, hf]

/-- The clocks after a step request that is not refused: the present step takes the increment, another begins a hold. -/
def Ck.takeStep (k : Ck) (m : BitVec 5) (inc : BitVec 40) : Ck :=
  if m = k.m then { k with stepM := m, stepInc := inc, inc := inc } else { k with stepM := m, stepInc := inc, hold := some (m, inc) }

/-! ### The outcomes of a step request (R433) -/

theorem clkStep_of_hold {s : State} (hh : s.ck.hold ≠ none) (v : Word) : clkStep v s = (.refused .busy, s) :=
  if_pos (Option.isSome_iff_ne_none.2 hh)

theorem clkStep_of_rest {s : State} (hh : s.ck.hold = none) (hr : s.ck.rest = true) (v : Word) :
    clkStep v s = (.refused .state, s) := by
  simp [clkStep, hh, hr]

theorem clkStep_of_range {s : State} (hh : s.ck.hold = none) (hr : s.ck.rest = false) {v : Word}
    (hm : (BitVec.ofNat 5 (fld v 4 0)).toNat < 10 ∨ 16 < (BitVec.ofNat 5 (fld v 4 0)).toNat) :
    clkStep v s = (.refused .range, s) := by
  rw [clkStep, if_neg (by simp [hh]), if_neg (by simp [hr]), if_pos hm]

theorem clkStep_of_free {s : State} (hh : s.ck.hold = none) (hr : s.ck.rest = false) {v : Word}
    (hlo : 10 ≤ (BitVec.ofNat 5 (fld v 4 0)).toNat) (hhi : (BitVec.ofNat 5 (fld v 4 0)).toNat ≤ 16) :
    clkStep v s
      = (.ok, { s with ck := s.ck.takeStep (BitVec.ofNat 5 (fld v 4 0)) (BitVec.ofNat 40 (fld v 47 8)) }) := by
  rw [clkStep, if_neg (by simp [hh]), if_neg (by simp [hr]), if_neg (by omega), Ck.takeStep]
  split <;> rfl

/-! ### The write as a command -/

theorem exec_msClkStepWrite {s t : State} {v : Word} {r : Status} (hf : s.cu.failstop = false) (h : clkStep v s = (r, t)) :
    exec (.msClkStepWrite v) s = .next (t.emit (.mgmt 0x0000200000 true r 0)) := by
  show Host.Outcome.next (s.mgmtOp 0x0000200000 (clkStep v)) = _
  rw [State.mgmtOp_of_works hf, h]

/-- Settles O35: each clause is one outcome of `clkStep`, with the completion that the write answers. -/
theorem clockStepWrites : Obligations.ClockStepWrites := by
  intro s v hf
  refine ⟨fun hh => ?_, fun hh hr => ?_, fun hh hr hm => ?_, fun hh hr hlo hhi => ?_⟩
  · exact exec_msClkStepWrite hf (clkStep_of_hold hh v)
  · exact exec_msClkStepWrite hf (clkStep_of_rest hh hr v)
  · exact exec_msClkStepWrite hf (clkStep_of_range hh hr hm)
  · exact exec_msClkStepWrite hf (clkStep_of_free hh hr hlo hhi)

end Sys2Proof.Machine
end
